-- ==== Sys2Proof/Word.lean ====
section
/-! DEFINITION. The word types of the station and the fixed-length table every numbered bank of like things is held in. -/

namespace Sys2Proof

/-- A byte of a payload, a page or the image (R190). -/
abbrev Byte := BitVec 8

/-- A two-byte field (R190): periods, phases, tags, counters on the wire. -/
abbrev Half := BitVec 16

/-- A four-byte field (R190): cycle numbers and travel positions. -/
abbrev Word := BitVec 32

/-- A numbered bank of `n` like things: the eight local lines, the 64 subscription entries, and so on. -/
structure Table (α : Type) (n : Nat) where
  items : List α
  size : items.length = n
  deriving DecidableEq, Repr

namespace Table

variable {α β : Type} {n : Nat}

/-- The entry of number `i`. -/
def get (t : Table α n) (i : Fin n) : α := t.items[i.val]'(by rw [t.size]; exact i.isLt)

/-- The bank with entry `i` replaced by `a`. -/
def set (t : Table α n) (i : Fin n) (a : α) : Table α n :=
  ⟨t.items.set i.val a, by rw [List.length_set, t.size]⟩

/-- The bank with `f` applied to every entry. -/
def map (f : α → β) (t : Table α n) : Table β n :=
  ⟨t.items.map f, by rw [List.length_map, t.size]⟩

/-- The bank whose entry `i` is `f i`. -/
def ofFn (f : Fin n → α) : Table α n := ⟨List.ofFn f, List.length_ofFn⟩

/-- The bank whose every entry is `a`. -/
def fill (n : Nat) (a : α) : Table α n := ⟨List.replicate n a, List.length_replicate⟩

/-- The bank with `f` applied to entry `i` alone. -/
def modify (t : Table α n) (i : Fin n) (f : α → α) : Table α n := t.set i (f (t.get i))

end Table

end Sys2Proof
end

