-- ==== Sys2Proof/Config.lean ====
section
/-! DEFINITION. What the part fixes for every station: the numbers the manual states. -/

namespace Sys2Proof

/-- R47: the mark-out queue holds up to 16 captures. -/
def Config.markOutPlaces : Nat := 16

/-- R104: the travel history holds up to 16 entries. -/
def Config.historyPlaces : Nat := 16

/-- R14: a BEACON's line acceptance falls 95 ticks after its start bit. -/
def Config.beaconTicks : Nat := 95

/-- R137: three recessive bit times make the interframe gap. -/
def Config.gapBits : Nat := 3

/-- R138: after a pin reset the decoder waits for 140 consecutive recessive bit times. -/
def Config.resyncBits : Nat := 140

/-- R136: no frame lasts longer than a REPORT, 127 ticks. -/
def Config.longestFrame : Nat := 127

/-- R143: the arbitration field is the first 9 bits of a frame. -/
def Config.arbitrationBits : Nat := 9

/-- R146: the eighth consecutive transmit fault in ACTIVE mutes the station. -/
def Config.muteFaults : Nat := 8

/-- R153: 32 consecutive line acceptances of other parties' frames end a mute. -/
def Config.muteAcceptances : Nat := 32

/-- R153: four consecutive quiet cycles end a mute. -/
def Config.muteQuietCycles : Nat := 4

/-- R132: a disagreement is reported at its 64th consecutive tick. -/
def Config.mismatchTicks : Nat := 64

/-- R96: an on-time limit is in units of 16 local ticks. -/
def Config.onTimeUnit : Nat := 16

/-- The conventions of 00_scope.md: counters are 16 bits wide and stop at 65,535. -/
def Config.counterMax : Nat := 65535

/-- R182, 00_scope.md: the configuration image is a record of 760 bytes. -/
def Config.imageBytes : Nat := 760

/-- R185: the one format code the LS8 reads. -/
def Config.formatCode : Half := 0x0A01#16

/-- R165, R172: the target that addresses all stations. -/
def Config.targetAll : Byte := 255#8

/-- R182: the device address of the serial memory. -/
def Config.linkDevice : BitVec 7 := 0x50#7

/-- R182: the clock pulses that the CFL gives at most while CSDA reads low. -/
def Config.recoveryPulses : Nat := 9

/-- R182: the configuration link runs at one bit per 10 local ticks. -/
def Config.linkTicksPerBit : Nat := 10

end Sys2Proof
end

