-- ==== Sys2Proof/Syntax.lean ====
section
/-! DEFINITION. The commands of the station: one constructor for each row of spec/opcode_table.json, with its operands. -/

namespace Sys2Proof

/-- A local line, L0 to L7. -/
abbrev LineId := Fin 8

/-- A station address, 0 to 31 (R181). -/
abbrev Address := BitVec 5

/-- The acknowledgements that the memory gives in an image read (R182): after the device address with the write
direction, after either offset byte, and after the device address with the read direction. -/
inductive MemoryAck where
  | deviceWrite
  | offsetHigh
  | offsetLow
  | deviceRead
  deriving DecidableEq, Repr

/-- What the serial memory does in one image read (R182, R183), as the station meets it on the configuration link: the
clock pulses after which CSDA reads high, the acknowledgement that reads high, if any, and the bytes that the memory
drives, from byte 0. -/
structure SerialMemory where
  pulses : Nat
  refuses : Option MemoryAck
  bytes : List Byte
  deriving DecidableEq, Repr

/-- What a start samples and meets (R181, R182): the levels on A4 to A0, and the memory of its image read. -/
structure StartReads where
  straps : Address
  memory : SerialMemory
  deriving DecidableEq, Repr

/-- The class and the payload of a frame that no block takes (R149): a REPORT, or a frame of class 6 or 7. -/
structure ReportContent where
  cls : BitVec 3
  payload : List Byte
  deriving DecidableEq, Repr

/-- The fields of one frame as the line shows them, from the class to the check (R136, R190). -/
structure WireFrame where
  cls : BitVec 3
  source : Address
  length : BitVec 4
  payload : List Byte
  check : Half
  deriving DecidableEq, Repr

/-- The commands: every event that reaches the station from outside or from its own time base, each whole and
indivisible (spec/95_what_each_step_holds.md). A line-accepted frame carries its source address and the fields of its
payload (R191). -/
inductive Instr where
  /-- PIN_RESET (R181): RESET goes low, or power is absent. -/
  | pinReset
  /-- RESET_RELEASE (R181): the start proceeds, with what it samples and meets (assumption log 11). -/
  | resetRelease (start : StartReads)
  /-- MEMORY_NOT_ANSWERING (R183): the stop condition of a read that ends without an image, for the acknowledgement
  `place` that read high, or, with none, for CSDA low after the ninth clock pulse. -/
  | memoryNotAnswering (place : Option MemoryAck)
  /-- IMAGE_CHECKS (R184): the stop condition of an answered read, in which the memory has driven the bytes of
  `image`; bit n of `pins` is 1 when pin Ln is high at this moment (R125). -/
  | imageChecks (image : List Byte) (pins : BitVec 8)
  /-- LISTEN_WRAP (R5): the phase wraps in LISTEN. -/
  | listenWrap
  /-- SELF_START (R6): the wrap that brings the listen count to JOIN_WAIT. -/
  | selfStart
  /-- CYCLE_EXPIRY (R9): the tick that would bring the phase of a LOCKED station to P. -/
  | cycleExpiry
  /-- HOLD_END (R18): the tick at which the hold remainder reaches 0. -/
  | holdEnd
  /-- TIME_HEAD_DUE (R76): an advance of the line instant that finds the head of the time schedule due. -/
  | timeHeadDue
  /-- ON_TIME_EXPIRY (R97): the tick at which the line's on-time countdown reaches 0. -/
  | onTimeExpiry (line : LineId)
  /-- FIRST_SIGHT (R121): a sample of the line differs from its filtered level and no record is present. -/
  | firstSight (line : LineId)
  /-- FILTER_REVERSION (R122): a sample of the line equals its filtered level while a record is present. -/
  | filterReversion (line : LineId)
  /-- EDGE_ACCEPT (R122): the sample that completes the filter width. -/
  | edgeAccept (line : LineId)
  /-- DEAD_TIME_EXPIRY (R127): the tick at which the dead-time remainder reaches 0. -/
  | deadTimeExpiry (line : LineId)
  /-- PULSE_END (R131): the tick at which the pulse remainder reaches 0. -/
  | pulseEnd (line : LineId)
  /-- MISMATCH_DETECTED (R132): a disagreeing comparison of a DRIVE pin, the 64th in a row where it is detected. -/
  | mismatchDetected (line : LineId)
  /-- TRANSMIT_START (R141, R142): an attempt begins at an idle line. -/
  | transmitStart
  /-- ARBITRATION_LOST (R143). -/
  | arbitrationLost
  /-- TRANSMIT_FAULT (R144): at the present bit, which is the acceptance bit or an earlier one. -/
  | transmitFault (atAcceptance : Bool)
  /-- OWN_FRAME_ACCEPTED (R145): the acceptance bit of the station's own frame read recessive. -/
  | ownFrameAccepted
  /-- FRAME_REJECTED (R147): a received frame, as read from the line, closes with its acceptance bit dominant. -/
  | frameRejected (frame : WireFrame)
  /-- BEACON (R7, R15). -/
  | beacon (source : Address) (cycle : Word) (phase period : Half)
  /-- MARK (R52); `channel` is the byte that carries the mark channel, as the line shows it (R190, R191). -/
  | mark (source : Address) (channel : Byte) (sequence : Byte) (cycleLow phase : Half)
  /-- CONTROL with operation CLEAR_FAULTS (R174). -/
  | clearFaults (source : Address) (target : Byte) (tag : Half)
  /-- CONTROL with operation PURGE (R175). -/
  | purge (source : Address) (target : Byte) (tag : Half)
  /-- CONTROL with operation RESTART (R176), with what the new start samples and meets (R181; assumption log 11). -/
  | restart (source : Address) (target : Byte) (tag : Half) (start : StartReads)
  /-- CONTROL with an unknown operation (R177). -/
  | unknownOperation (source : Address) (target : Byte) (tag : Half) (operation : Byte)
  /-- RETIME (R35, R177). -/
  | retime (source : Address) (target : Byte) (tag : Half) (entry : Byte) (delay : BitVec 24)
  /-- QUERY (R165, R166). -/
  | query (source : Address) (target : Byte) (page : Byte)
  /-- REPORT of another party, or a frame of class 6 or 7 (R149). -/
  | report (source : Address) (content : ReportContent)
  /-- RECEIVE_DECODER_OUTSIDE_FRAME (R138): 140 consecutive recessive bit times after a pin reset. -/
  | receiveDecoderOutsideFrame
  /-- START_BIT_READ (R138, R153): a dominant bit of another party is read outside a frame. -/
  | startBitRead
  /-- READ_BACK_AGREEMENT (R132): a DRIVE pin whose read-back disagreed agrees again. -/
  | readBackAgreement (line : LineId)
  deriving DecidableEq, Repr

end Sys2Proof
end

