-- ==== Sys2Proof/WellFormed.lean ====
section
/-! DEFINITION. Which terms of `Instr` are commands the station can meet: the field ranges that the types do not already fix. -/

namespace Sys2Proof

/-- R136: a receiver locates the end slot from the length it reads, and a length of 13 to 15 as one of 12. -/
def WireFrame.payloadBytes (f : WireFrame) : Nat := min f.length.toNat 12

/-- R191: the operation codes that name an operation. -/
def knownOperations : List Byte := [0x01#8, 0x02#8, 0x03#8]

/-- R136: the payload that the line shows is the one that the length locates. -/
def WireFrame.payloadFits (f : WireFrame) : Bool := decide (f.payload.length = f.payloadBytes)

/-- R182: a read is answered by at most 760 bytes. -/
def SerialMemory.fits (m : SerialMemory) : Bool := decide (m.bytes.length ≤ Config.imageBytes)

/-- R136, R139: the payload of a line-accepted REPORT, or of a frame of class 6 or 7. -/
def ReportContent.fits (c : ReportContent) : Bool :=
  decide (5 ≤ c.cls.toNat) &&
    (if c.cls = 5#3 then decide (c.payload.length = 12) else decide (c.payload.length ≤ 12))

/-- The check of a command's fields. -/
def Instr.wellFormed : Instr → Bool
  | .resetRelease start => start.memory.fits
  | .restart _ _ _ start => start.memory.fits
  | .imageChecks image _ => decide (image.length ≤ Config.imageBytes)
  | .frameRejected f => f.payloadFits
  | .unknownOperation _ _ _ op => decide (op ∉ knownOperations)
  | .report _ content => content.fits
  | .pinReset => true
  | .memoryNotAnswering _ => true
  | .listenWrap => true
  | .selfStart => true
  | .cycleExpiry => true
  | .holdEnd => true
  | .timeHeadDue => true
  | .onTimeExpiry _ => true
  | .firstSight _ => true
  | .filterReversion _ => true
  | .edgeAccept _ => true
  | .deadTimeExpiry _ => true
  | .pulseEnd _ => true
  | .mismatchDetected _ => true
  | .transmitStart => true
  | .arbitrationLost => true
  | .transmitFault _ => true
  | .ownFrameAccepted => true
  | .beacon _ _ _ _ => true
  | .mark _ _ _ _ _ => true
  | .clearFaults _ _ _ => true
  | .purge _ _ _ => true
  | .retime _ _ _ _ _ => true
  | .query _ _ _ => true
  | .receiveDecoderOutsideFrame => true
  | .startBitRead => true
  | .readBackAgreement _ => true

end Sys2Proof
end

