-- ==== Sys2Proof/Decode.lean ====
section
/-! DEFINITION. The wire forms of the line pair (R136, R139, R190, R191): bits, check, frame layout, and the reading of a
line-accepted frame as the command it stands for; and the opcode table's words, of which this block has none. -/

namespace Sys2Proof

/-- No row of spec/opcode_table.json gives bits, so no word spells a command (assumption log 17). -/
def decodeTableWord (_nbits _w : Nat) : Option Instr := none

/-! ### Bits and bytes -/

/-- The bits of a field, most significant first (R190). -/
def bitsOf {w : Nat} (x : BitVec w) : List Bool := (List.range w).map x.getMsbD

/-- The bits of a run of bytes, in the order they are sent (R190). -/
def bytesBits (bytes : List Byte) : List Bool := bytes.flatMap bitsOf

/-- The two bytes of a field, most significant first (R190). -/
def bytes16 (x : Half) : List Byte := [x.extractLsb' 8 8, x.extractLsb' 0 8]

/-- The three bytes of a field, most significant first (R190). -/
def bytes24 (x : BitVec 24) : List Byte := [x.extractLsb' 16 8, x.extractLsb' 8 8, x.extractLsb' 0 8]

/-- The four bytes of a field, most significant first (R190). -/
def bytes32 (x : Word) : List Byte :=
  [x.extractLsb' 24 8, x.extractLsb' 16 8, x.extractLsb' 8 8, x.extractLsb' 0 8]

/-- Byte `i` of a run of bytes; `0` past its end, which no reader of a checked length reaches. -/
def byteAt (bytes : List Byte) (i : Nat) : Byte := bytes.getD i 0#8

/-- The two-byte field at byte `i` (R190). -/
def half16At (bytes : List Byte) (i : Nat) : Half := byteAt bytes i ++ byteAt bytes (i + 1)

/-- The three-byte field at byte `i` (R190). -/
def field24At (bytes : List Byte) (i : Nat) : BitVec 24 :=
  (byteAt bytes i ++ byteAt bytes (i + 1)) ++ byteAt bytes (i + 2)

/-- The four-byte field at byte `i` (R190). -/
def word32At (bytes : List Byte) (i : Nat) : Word := half16At bytes i ++ half16At bytes (i + 2)

/-! ### The check -/

/-- R139: one bit into the register of the generator x^16 + x^12 + x^5 + 1. -/
def crcStep (register : Half) (bit : Bool) : Half :=
  if (register.msb ^^ bit) = true then (register <<< 1) ^^^ 0x1021#16 else register <<< 1

/-- R139: the check over a run of bits: all ones first, no inversion after the last. -/
def crcOf (bits : List Bool) : Half := bits.foldl crcStep 0xFFFF#16

/-! ### Frames -/

/-- R136: the payload length of each class; none for the unassigned codes 6 and 7. -/
def classBytes (cls : BitVec 3) : Option Nat :=
  match cls.toNat with
  | 0 => some 8
  | 1 => some 4
  | 2 => some 6
  | 3 => some 7
  | 4 => some 2
  | 5 => some 12
  | _ => none

namespace WireFrame

/-- R139: the bits that the check covers: class, source address, length, payload. -/
def coveredBits (f : WireFrame) : List Bool :=
  bitsOf f.cls ++ (bitsOf f.source ++ (bitsOf f.length ++ bytesBits f.payload))

/-- R139: the check computed over the fields. -/
def computedCheck (f : WireFrame) : Half := crcOf f.coveredBits

/-- R139: the length is the one of the class; for codes 6 and 7 every length from 0 to 12. -/
def lengthFits (f : WireFrame) : Bool :=
  match classBytes f.cls with
  | some n => f.length.toNat == n
  | none => decide (f.length.toNat ≤ 12)

/-- R139: a receiver finds the frame malformed. -/
def malformed (f : WireFrame) : Bool := !(f.lengthFits) || f.computedCheck != f.check

/-- R136: the ticks that the frame lasts: header 13, payload, check 16 and end slot 2. -/
def ticks (f : WireFrame) : Nat := 13 + 8 * f.payloadBytes + 18

/-- R190: the bits of the frame as its sender sends them; a dominant bit is 0, and both end-slot bits are sent
recessive. -/
def bits (f : WireFrame) : List Bool := false :: (f.coveredBits ++ (bitsOf f.check ++ [true, true]))

end WireFrame

/-- R190: the frame of a class, a source address and a payload, with its length and check. -/
def frameOf (cls : BitVec 3) (source : Address) (payload : List Byte) : WireFrame :=
  let open_ : WireFrame :=
    { cls := cls, source := source, length := BitVec.ofNat 4 payload.length, payload := payload, check := 0#16 }
  { open_ with check := open_.computedCheck }

/-- R191: the payload of a BEACON. -/
def beaconPayload (cycle : Word) (phase period : Half) : List Byte :=
  bytes32 cycle ++ (bytes16 phase ++ bytes16 period)

/-- A number of three bits as an index of eight. -/
def index8 (b : BitVec 3) : Fin 8 := ⟨b.toNat, b.isLt⟩

/-- R190, R191: the first byte of a MARK as the station sends it, its unused bits 0. -/
def markChannelByte (channel : Fin 8) : Byte := BitVec.ofNat 8 channel.val

/-- R190, R191: the mark channel that the first byte of a MARK carries; its unused bits are ignored. -/
def markChannel (octet : Byte) : Fin 8 := index8 (octet.extractLsb' 0 3)

/-- R191: the payload of a MARK; bits 7 to 3 of its first byte are unused. -/
def markPayload (channel : Byte) (sequence : Byte) (cycleLow phase : Half) : List Byte :=
  channel :: sequence :: (bytes16 cycleLow ++ bytes16 phase)

/-- R191: the payload of a CONTROL. -/
def controlPayload (target : Byte) (tag : Half) (operation : Byte) : List Byte :=
  target :: (bytes16 tag ++ [operation])

/-- R191: the payload of a RETIME. -/
def retimePayload (target : Byte) (tag : Half) (entry : Byte) (delay : BitVec 24) : List Byte :=
  target :: (bytes16 tag ++ (entry :: bytes24 delay))

/-- R191: the CONTROL frame's command, by its operation byte. -/
def decodeControl (start : StartReads) (source : Address) (target : Byte) (tag : Half) (operation : Byte) : Instr :=
  if operation = 0x01#8 then .clearFaults source target tag
  else if operation = 0x02#8 then .purge source target tag
  else if operation = 0x03#8 then .restart source target tag start
  else .unknownOperation source target tag operation

/-- The command that a frame stands for once the line has accepted it (R136, R149, R191); none for a malformed frame,
which its receiver rejects (R147). A RESTART samples the straps at that moment (R176) and reads its image anew. -/
def decodeFrame (start : StartReads) (f : WireFrame) : Option Instr :=
  if f.malformed then none
  else match f.cls.toNat with
  | 0 => some (.beacon f.source (word32At f.payload 0) (half16At f.payload 4) (half16At f.payload 6))
  | 1 => some (decodeControl start f.source (byteAt f.payload 0) (half16At f.payload 1) (byteAt f.payload 3))
  | 2 => some (.mark f.source (byteAt f.payload 0) (byteAt f.payload 1)
      (half16At f.payload 2) (half16At f.payload 4))
  | 3 => some (.retime f.source (byteAt f.payload 0) (half16At f.payload 1) (byteAt f.payload 3)
      (field24At f.payload 4))
  | 4 => some (.query f.source (byteAt f.payload 0) (byteAt f.payload 1))
  | _ => some (.report f.source { cls := f.cls, payload := f.payload })

/-- The frame that a well-formed frame command came in (R136, R191); none for a command that is no frame, and
for a rejected frame. -/
def frameOfCommand : Instr → Option WireFrame
  | .beacon source cycle phase period => some (frameOf 0#3 source (beaconPayload cycle phase period))
  | .clearFaults source target tag => some (frameOf 1#3 source (controlPayload target tag 0x01#8))
  | .purge source target tag => some (frameOf 1#3 source (controlPayload target tag 0x02#8))
  | .restart source target tag _ => some (frameOf 1#3 source (controlPayload target tag 0x03#8))
  | .unknownOperation source target tag op => some (frameOf 1#3 source (controlPayload target tag op))
  | .mark source channel sequence cycleLow phase =>
      some (frameOf 2#3 source (markPayload channel sequence cycleLow phase))
  | .retime source target tag entry delay => some (frameOf 3#3 source (retimePayload target tag entry delay))
  | .query source target page => some (frameOf 4#3 source [target, page])
  | .report source content => some (frameOf content.cls source content.payload)
  | .pinReset => none
  | .resetRelease _ => none
  | .memoryNotAnswering _ => none
  | .imageChecks _ _ => none
  | .listenWrap => none
  | .selfStart => none
  | .cycleExpiry => none
  | .holdEnd => none
  | .timeHeadDue => none
  | .onTimeExpiry _ => none
  | .firstSight _ => none
  | .filterReversion _ => none
  | .edgeAccept _ => none
  | .deadTimeExpiry _ => none
  | .pulseEnd _ => none
  | .mismatchDetected _ => none
  | .transmitStart => none
  | .arbitrationLost => none
  | .transmitFault _ => none
  | .ownFrameAccepted => none
  | .frameRejected _ => none
  | .receiveDecoderOutsideFrame => none
  | .startBitRead => none
  | .readBackAgreement _ => none

/-- The frame whose close a frame command stands for: the one it came in, or the rejected one it gives; none for a
command that is no frame. -/
def Instr.wireFrame (i : Instr) : Option WireFrame :=
  match i with
  | .frameRejected f => some f
  | _ => frameOfCommand i

/-- R136, R190: the run of recessive bits with which an accepted frame ends, its end slot's two among them. -/
def WireFrame.recessiveTail (f : WireFrame) : Nat := (f.bits.reverse.takeWhile fun b => b).length

/-- The run of recessive bits that the line has shown at the close of the frame that a command stands for: an accepted
frame's tail, or the one bit behind the dominant acceptance bit of a rejected frame. -/
def Instr.recessiveTail (i : Instr) : Nat :=
  match frameOfCommand i with
  | some f => f.recessiveTail
  | none => 1

end Sys2Proof
end

