-- ==== Sys2Proof/Machine/State.lean ====
section
/-! DEFINITION. The state of the station, block by block as the manual gives it, the queue of waiting commands, and the state at a pin reset. -/

namespace Sys2Proof.Machine

/-! ### Line time (R1 to R3) -/

/-- A line instant (R1): a cycle number and a phase from 0 to P-1. -/
structure Instant where
  cycle : Word
  phase : Nat
  deriving DecidableEq, Repr

/-- R4. -/
inductive SyncState where
  | listen
  | locked
  deriving DecidableEq, Repr

/-- R11. -/
inductive BeaconSlot where
  | empty
  | offered
  | sending
  deriving DecidableEq, Repr

/-- R2: the parameters of the station record that the LTU takes at the entry into RUNNING. -/
structure TimeParams where
  period : Nat
  window : Nat
  joinWait : Nat
  strayLimit : Nat
  deriving DecidableEq, Repr

/-- R3: the state of the Line Time Unit. `ticked` is the model's own mark (assumption log 14): the LTU's part of the
present tick has been taken. -/
structure Ltu where
  sync : SyncState
  instant : Instant
  hold : Nat
  streak : Nat
  leadStray : Bool
  adopted : Bool
  listenCount : Nat
  slot : BeaconSlot
  lastSource : Option Address
  params : Option TimeParams
  ticked : Bool
  deriving DecidableEq, Repr

/-! ### Subscriptions (R25 to R28) -/

/-- A level after polarity (R120). -/
inductive Level where
  | inactive
  | active
  deriving DecidableEq, Repr

/-- R26. -/
inductive Domain where
  | time
  | travel
  deriving DecidableEq, Repr

/-- R26, R33: a condition on the filtered level of one SENSE line. -/
structure Qualifier where
  line : LineId
  level : Level
  deriving DecidableEq, Repr

/-- R26: a subscription entry. -/
structure Entry where
  valid : Bool
  domain : Domain
  delay : BitVec 24
  template : Fin 16
  qualifier : Option Qualifier
  shadow : Option (BitVec 24)
  lastSeen : Option Byte
  deriving DecidableEq, Repr

/-- R28, R193: the op of a template step; the codes 0 and 3 are no op. -/
inductive StepOp where
  | noOp
  | assert
  | release
  deriving DecidableEq, Repr

/-- R28: a step of a template. -/
structure TemplateStep where
  op : StepOp
  line : LineId
  gap : Half
  deriving DecidableEq, Repr

/-- R28: a template; its step count is held as the image gives it, 0 to 255 (R193). -/
structure Template where
  count : Nat
  steps : Table TemplateStep 4
  deriving DecidableEq, Repr

/-- R25, R26, R28: the Subscription Store. -/
structure Sbs where
  sourceMap : Table (Option (Fin 8)) 32
  entries : Table Entry 64
  templates : Table Template 16
  deriving DecidableEq, Repr

/-! ### Marks (R42, R47) -/

/-- R47: a capture in the mark-out queue. -/
structure QueuedMark where
  channel : Fin 8
  sequence : Byte
  instant : Instant
  deriving DecidableEq, Repr

/-- R42: the Mark Unit. -/
structure Mku where
  counters : Table Byte 8
  queue : List QueuedMark
  deriving DecidableEq, Repr

/-! ### Actions (R62 to R65) -/

/-- A set of local lines: entry n says whether Ln is in it. -/
abbrev HeldSet := Table Bool 8

/-- R64: an action record; `δ` is the kind of due point of its domain, a line instant or a travel position. -/
structure Action (δ : Type) where
  slot : Fin 48
  due : δ
  template : Fin 16
  next : Fin 4
  held : HeldSet
  deriving DecidableEq, Repr

/-- R71. -/
structure LateLimits where
  time : Nat
  travel : Nat
  deriving DecidableEq, Repr

/-- R65: the Action Scheduler; the head of each list is the top of the stack and the head of the schedule. -/
structure Asc where
  free : List (Fin 48)
  time : List (Action Instant)
  travel : List (Action Word)
  limits : Option LateLimits
  deriving DecidableEq, Repr

/-! ### Drive claims (R91) -/

/-- R91: the Drive Claim Unit's state of one line; the demand is computed from the claim count (R94). A countdown of
`none` is stopped. `counted` is the model's own mark (assumption log 14). -/
structure DriveLine where
  claim : Nat
  limit : Nat
  countdown : Option Nat
  counted : Bool
  deriving DecidableEq, Repr

/-- R91: the Drive Claim Unit. -/
structure Dcu where
  lines : Table DriveLine 8
  deriving DecidableEq, Repr

/-! ### Travel (R104) -/

/-- R105. -/
inductive TravelMode where
  | none
  | pulse
  | quad
  deriving DecidableEq, Repr

/-- R104: an entry of the travel history. -/
structure HistoryEntry where
  cycle : Word
  position : Word
  deriving DecidableEq, Repr

/-- R104: the Travel Unit; the history's oldest entry comes first. -/
structure Tvu where
  mode : TravelMode
  position : Word
  history : List HistoryEntry
  deriving DecidableEq, Repr

/-! ### Local lines (R118, R119) -/

/-- R118. -/
inductive LineFunction where
  | unused
  | sense
  | drive
  | zero
  | cycleOut
  | enc
  deriving DecidableEq, Repr

/-- R118, R120. -/
inductive Polarity where
  | activeHigh
  | activeLow
  deriving DecidableEq, Repr

/-- R118, R193: the edge selection; code 3 is held as the image gives it on a line that does not read the setting. -/
inductive EdgeSelection where
  | rising
  | falling
  | both
  | unassigned
  deriving DecidableEq, Repr

/-- R118: the function and settings of a line. -/
structure LineSettings where
  function : LineFunction
  polarity : Polarity
  edges : EdgeSelection
  filterWidth : Nat
  deadTime : Nat
  pulseWidth : Nat
  channel : Fin 8
  publish : Bool
  localRoute : Bool
  deriving DecidableEq, Repr

/-- R121: what the record of a SENSE line holds besides: the first-sight instant, absent in LISTEN, and position. -/
structure Stamp where
  instant : Option Instant
  position : Word
  deriving DecidableEq, Repr

/-- R121: a filter-in-progress record; the stamp is absent on a ZERO or ENC line. -/
structure FilterRecord where
  pending : Level
  remaining : Nat
  stamp : Option Stamp
  deriving DecidableEq, Repr

/-- R119: the Local Line Unit's state of one line; a presented level of `none` is undriven. `pinHeld` is the model's
picture of the pin of a DRIVE line: a level something outside holds it at, or none; that a pin reset and a RESTART take
it back to none is the model's choice (assumption log 15). `sampled`,
`deadCounted`, `pulseCounted` and `compared` are the model's own marks (assumption log 14). -/
structure LocalLine where
  settings : LineSettings
  filtered : Level
  record : Option FilterRecord
  deadTime : Nat
  presented : Option Level
  pulse : Nat
  mismatchTimer : Nat
  mismatch : Bool
  pinHeld : Option Level
  sampled : Bool
  deadCounted : Bool
  pulseCounted : Bool
  compared : Bool
  deriving DecidableEq, Repr

/-- R119: the Local Line Unit. -/
structure Llu where
  lines : Table LocalLine 8
  deriving DecidableEq, Repr

/-! ### Line pair (R140) -/

/-- R150. -/
inductive TransmitState where
  | silent
  | reportOnly
  | active
  | muted
  deriving DecidableEq, Repr

/-- R141: the owners' candidates. -/
inductive Candidate where
  | beacon
  | mark
  | report
  deriving DecidableEq, Repr

/-- R140, R142: a transmission in progress: the candidate, the frame fixed at the start bit, and the ticks since the
start bit, which is the number of the bit on the wire. -/
structure Transmission where
  candidate : Candidate
  frame : WireFrame
  bit : Nat
  deriving DecidableEq, Repr

/-- R138, R140: the receive decoder's position. -/
inductive Decoder where
  /-- After a pin reset: taken as inside a frame of unknown bounds; `run` consecutive recessive bits read before the
  present bit time, whose bit has been read as `dominant`, or is taken as recessive. -/
  | unsynchronised (run : Nat) (dominant : Bool)
  /-- Outside a frame; `run` recessive bits read since the last close, counted up to the interframe gap (R137). -/
  | outside (run : Nat)
  /-- Within a frame at bit `bit`; `heeded` is false when its start bit was read in SILENT (R150). -/
  | inside (bit : Nat) (heeded : Bool)
  /-- In the end slot of the station's own rejected frame, `left` ticks before its close (R144). -/
  | endSlot (left : Nat)
  deriving DecidableEq, Repr

/-- R140: the Line Pair Interface. `chosen` is the model's own mark (assumption log 14): the choice of a candidate has
been made in the present tick. -/
structure Lpi where
  state : TransmitState
  faultCount : Nat
  acceptedRun : Nat
  quietCycles : Nat
  frameStart : Bool
  transmission : Option Transmission
  decoder : Decoder
  chosen : Bool
  deriving DecidableEq, Repr

/-! ### Faults and reports (R157) -/

/-- R158: the fourteen event flags. -/
structure EventFlags where
  stray : Bool
  merge : Bool
  periodMismatch : Bool
  addressClash : Bool
  markGap : Bool
  markTooOld : Bool
  missed : Bool
  poolExhausted : Bool
  markOutOverrun : Bool
  driveTimeout : Bool
  driveMismatch : Bool
  txFault : Bool
  requestRefused : Bool
  restarted : Bool
  deriving DecidableEq, Repr

/-- R163: the twelve counters, each 0 to 65,535. -/
structure Counters where
  strays : Nat
  merges : Nat
  lateFires : Nat
  missed : Nat
  lostMarks : Nat
  duplicates : Nat
  poolRefusals : Nat
  markOutDrops : Nat
  txFaults : Nat
  refusedRequests : Nat
  rxRejects : Nat
  acceptedFrames : Nat
  deriving DecidableEq, Repr

/-- R166. -/
inductive ReportSlot where
  | empty
  | waiting (page : Fin 8)
  | sending (page : Fin 8)
  deriving DecidableEq, Repr

/-- R157: the Fault and Report Unit; the condition flags and the FAULT line follow the station (R160, R161) and are
computed. -/
structure Fru where
  events : EventFlags
  counters : Counters
  mask : Half
  reportSlot : ReportSlot
  heldPage : Option (Fin 8)
  deriving DecidableEq, Repr

/-- R171: the Service Request Handler. -/
structure Srh where
  lineTag : Option Half
  deriving DecidableEq, Repr

/-! ### Configuration and start (R180) -/

/-- R179. -/
inductive RunState where
  | configuring
  | halted
  | running
  deriving DecidableEq, Repr

/-- R180: the read progress; `ticks` counts the local ticks since the read began. -/
inductive ReadProgress where
  | notBegun
  | reading (ticks : Nat)
  | ended
  deriving DecidableEq, Repr

/-- R180: the Configuration Loader. `memory` is the model's picture of what the image read meets on the configuration
link (assumption log 11). -/
structure Cfl where
  run : RunState
  address : Address
  read : ReadProgress
  memory : SerialMemory
  buffer : List Byte
  identity : Half
  checkValue : Half
  haltCode : Nat
  deriving DecidableEq, Repr

/-! ### The station -/

/-- The state of the station: its eleven blocks, and the commands that wait, first in first out. -/
structure State where
  ltu : Ltu
  sbs : Sbs
  mku : Mku
  asc : Asc
  dcu : Dcu
  tvu : Tvu
  llu : Llu
  lpi : Lpi
  fru : Fru
  srh : Srh
  cfl : Cfl
  pending : List Instr
  deriving DecidableEq, Repr

/-- Nothing stops the station: a start that fails ends in HALTED (R183, R184), and whatever else goes wrong sets a flag
or counts (R158, R163). No command faults, so there is no constructor. -/
inductive Fault where
  deriving DecidableEq, Repr

/-- The one reason for which a command would have no meaning. -/
inductive Refusal where
  /-- Raised by an arm of `exec` whose command has no meaning in the model yet; no arm raises it. Safe. -/
  | notModelled (mnemonic : String)
  deriving DecidableEq, Repr

/-! ### The state at a pin reset -/

/-- R3. -/
def Ltu.reset : Ltu :=
  { sync := .listen, instant := ⟨0#32, 0⟩, hold := 0, streak := 0, leadStray := false, adopted := false,
    listenCount := 0, slot := .empty, lastSource := none, params := none, ticked := false }

/-- R40. -/
def Entry.reset : Entry :=
  { valid := false, domain := .time, delay := 0#24, template := 0, qualifier := none, shadow := none,
    lastSeen := none }

/-- R40. -/
def Template.reset : Template :=
  { count := 0, steps := Table.fill 4 { op := .noOp, line := 0, gap := 0#16 } }

/-- R40. -/
def Sbs.reset : Sbs :=
  { sourceMap := Table.fill 32 none, entries := Table.fill 64 Entry.reset,
    templates := Table.fill 16 Template.reset }

/-- R42. -/
def Mku.reset : Mku := { counters := Table.fill 8 0#8, queue := [] }

/-- R65: slot 0 at the top of the free stack. -/
def Asc.reset : Asc := { free := List.finRange 48, time := [], travel := [], limits := none }

/-- R91. -/
def DriveLine.reset : DriveLine := { claim := 0, limit := 0, countdown := none, counted := false }

/-- R91. -/
def Dcu.reset : Dcu := { lines := Table.fill 8 DriveLine.reset }

/-- R104. -/
def Tvu.reset : Tvu := { mode := .none, position := 0#32, history := [] }

/-- R119: UNUSED, settings zero. -/
def LineSettings.reset : LineSettings :=
  { function := .unused, polarity := .activeHigh, edges := .rising, filterWidth := 0, deadTime := 0,
    pulseWidth := 0, channel := 0, publish := false, localRoute := false }

/-- R119; nothing holds the pin (DESIGN CHOICE, assumption log 15). -/
def LocalLine.reset : LocalLine :=
  { settings := LineSettings.reset, filtered := .inactive, record := none, deadTime := 0, presented := none,
    pulse := 0, mismatchTimer := 0, mismatch := false, pinHeld := none, sampled := false, deadCounted := false,
    pulseCounted := false, compared := false }

/-- R119. -/
def Llu.reset : Llu := { lines := Table.fill 8 LocalLine.reset }

/-- R140; R138 for the decoder. -/
def Lpi.reset : Lpi :=
  { state := .silent, faultCount := 0, acceptedRun := 0, quietCycles := 0, frameStart := false,
    transmission := none, decoder := .unsynchronised 0 false, chosen := false }

/-- R159: all fourteen clear. -/
def EventFlags.clear : EventFlags :=
  { stray := false, merge := false, periodMismatch := false, addressClash := false, markGap := false,
    markTooOld := false, missed := false, poolExhausted := false, markOutOverrun := false, driveTimeout := false,
    driveMismatch := false, txFault := false, requestRefused := false, restarted := false }

/-- R157: all twelve 0. -/
def Counters.zero : Counters :=
  { strays := 0, merges := 0, lateFires := 0, missed := 0, lostMarks := 0, duplicates := 0, poolRefusals := 0,
    markOutDrops := 0, txFaults := 0, refusedRequests := 0, rxRejects := 0, acceptedFrames := 0 }

/-- R157. -/
def Fru.reset : Fru :=
  { events := EventFlags.clear, counters := Counters.zero, mask := 0#16, reportSlot := .empty, heldPage := none }

/-- R171. -/
def Srh.reset : Srh := { lineTag := none }

/-- No read has begun, so the picture of the memory holds nothing. -/
def SerialMemory.unread : SerialMemory := { pulses := 0, refuses := none, bytes := [] }

/-- R180; the station address before the straps are sampled is 0 (DESIGN CHOICE, assumption log 9). -/
def Cfl.reset : Cfl :=
  { run := .configuring, address := 0#5, read := .notBegun, memory := SerialMemory.unread, buffer := [], identity := 0#16, checkValue := 0#16,
    haltCode := 0 }

/-- The station at a pin reset (R181): held at the beginning of CONFIGURING, no command waiting. -/
def State.reset : State :=
  { ltu := Ltu.reset, sbs := Sbs.reset, mku := Mku.reset, asc := Asc.reset, dcu := Dcu.reset, tvu := Tvu.reset,
    llu := Llu.reset, lpi := Lpi.reset, fru := Fru.reset, srh := Srh.reset, cfl := Cfl.reset, pending := [] }

end Sys2Proof.Machine
end

