-- ==== Sys2Proof/Machine/Ops.lean ====
section
/-! DEFINITION. The named operations over the state's parts: line instants, travel positions, levels, and the accessors the blocks share. -/

namespace Sys2Proof.Machine

/-! ### Line instants (R1) -/

/-- R1: the distance in ticks from one instant to another: the difference of the cycle numbers, read from -2^31 to
2^31-1, times P, plus the difference of the phases. -/
def Instant.distance (period : Nat) (fromI toI : Instant) : Int :=
  (toI.cycle - fromI.cycle).toInt * (period : Int) + ((toI.phase : Int) - (fromI.phase : Int))

/-- R1: one instant is at or before another when the distance from the first to the second is zero or positive. -/
def Instant.atOrBefore (period : Nat) (a b : Instant) : Bool := decide (0 ≤ Instant.distance period a b)

/-- R1: a delay of `ticks` added to an instant, carried into the cycle number modulo 2^32. -/
def Instant.add (period : Nat) (i : Instant) (ticks : Nat) : Instant :=
  { cycle := i.cycle + BitVec.ofNat 32 ((i.phase + ticks) / period), phase := (i.phase + ticks) % period }

/-! ### Travel positions -/

/-- The conventions of 00_scope.md: the signed difference `a - b`, from -2^31 to 2^31-1. -/
def signedDifference (a b : Word) : Int := (a - b).toInt

/-! ### Levels (R120) -/

/-- The other level. -/
def Level.other : Level → Level
  | .inactive => .active
  | .active => .inactive

/-- R120: the level after polarity of a pin that is high or low. -/
def Level.ofPin (p : Polarity) (high : Bool) : Level :=
  match p with
  | .activeHigh => if high then .active else .inactive
  | .activeLow => if high then .inactive else .active

/-- R120: whether the pin is high at a level. -/
def Level.toPin (p : Polarity) (l : Level) : Bool :=
  match p with
  | .activeHigh => l == .active
  | .activeLow => l == .inactive

/-! ### Accessors -/

/-- The eight local lines, in order. -/
def allLines : List LineId := [0, 1, 2, 3, 4, 5, 6, 7]

namespace State

/-- R2: P; 0 while absent, when nothing reads it. -/
def period (s : State) : Nat := (s.ltu.params.map TimeParams.period).getD 0

/-- R2: W. -/
def window (s : State) : Nat := (s.ltu.params.map TimeParams.window).getD 0

/-- R2: JOIN_WAIT. -/
def joinWait (s : State) : Nat := (s.ltu.params.map TimeParams.joinWait).getD 0

/-- R2: STRAY_LIMIT. -/
def strayLimit (s : State) : Nat := (s.ltu.params.map TimeParams.strayLimit).getD 0

/-- R71: TIME_LATE_LIMIT. -/
def timeLateLimit (s : State) : Nat := (s.asc.limits.map LateLimits.time).getD 0

/-- R71: TRAVEL_LATE_LIMIT. -/
def travelLateLimit (s : State) : Nat := (s.asc.limits.map LateLimits.travel).getD 0

/-- The station's line instant. -/
def now (s : State) : Instant := s.ltu.instant

/-- R179. -/
def running (s : State) : Bool := s.cfl.run == .running

/-- R4: RUNNING, in the sync state LOCKED. -/
def locked (s : State) : Bool := s.running && s.ltu.sync == .locked

/-- R4: RUNNING, in the sync state LISTEN. -/
def listening (s : State) : Bool := s.running && s.ltu.sync == .listen

/-- R150. -/
def muted (s : State) : Bool := s.lpi.state == .muted

/-- The LLU's state of a line. -/
def line (s : State) (n : LineId) : LocalLine := s.llu.lines.get n

/-- The DCU's state of a line. -/
def drive (s : State) (n : LineId) : DriveLine := s.dcu.lines.get n

/-- R118: the function of a line. -/
def functionOf (s : State) (n : LineId) : LineFunction := (s.line n).settings.function

/-- The state with the LLU's state of line `n` changed by `f`. -/
def mapLine (s : State) (n : LineId) (f : LocalLine → LocalLine) : State :=
  { s with llu := { s.llu with lines := s.llu.lines.modify n f } }

/-- The state with the LLU's state of every line changed by `f`. -/
def mapLines (s : State) (f : LocalLine → LocalLine) : State :=
  { s with llu := { s.llu with lines := s.llu.lines.map f } }

/-- The state with the DCU's state of line `n` changed by `f`. -/
def mapDrive (s : State) (n : LineId) (f : DriveLine → DriveLine) : State :=
  { s with dcu := { s.dcu with lines := s.dcu.lines.modify n f } }

end State

/-- R118: the functions whose pins the LLU samples and filters. -/
def LineFunction.sampled : LineFunction → Bool
  | .sense => true
  | .zero => true
  | .enc => true
  | .unused => false
  | .drive => false
  | .cycleOut => false

/-- R118: the functions whose pins the LLU drives. -/
def LineFunction.driven : LineFunction → Bool
  | .drive => true
  | .cycleOut => true
  | .unused => false
  | .sense => false
  | .zero => false
  | .enc => false

end Sys2Proof.Machine
end

