-- ==== Sys2Proof/Machine/Flags.lean ====
section
/-! DEFINITION. Event flags, condition flags, the FAULT line and the counters of the Fault and Report Unit (R157 to R164). -/

namespace Sys2Proof.Machine

/-- R158, R192: the event flags, by name. -/
inductive EventFlag where
  | stray
  | merge
  | periodMismatch
  | addressClash
  | markGap
  | markTooOld
  | missed
  | poolExhausted
  | markOutOverrun
  | driveTimeout
  | driveMismatch
  | txFault
  | requestRefused
  | restarted
  deriving DecidableEq, Repr

/-- R163: the counters, by name. -/
inductive CounterName where
  | strays
  | merges
  | lateFires
  | missed
  | lostMarks
  | duplicates
  | poolRefusals
  | markOutDrops
  | txFaults
  | refusedRequests
  | rxRejects
  | acceptedFrames
  deriving DecidableEq, Repr

/-- Whether a flag is set. -/
def EventFlags.has (e : EventFlags) : EventFlag → Bool
  | .stray => e.stray
  | .merge => e.merge
  | .periodMismatch => e.periodMismatch
  | .addressClash => e.addressClash
  | .markGap => e.markGap
  | .markTooOld => e.markTooOld
  | .missed => e.missed
  | .poolExhausted => e.poolExhausted
  | .markOutOverrun => e.markOutOverrun
  | .driveTimeout => e.driveTimeout
  | .driveMismatch => e.driveMismatch
  | .txFault => e.txFault
  | .requestRefused => e.requestRefused
  | .restarted => e.restarted

/-- R158: a flag set; one that is already set stays set. -/
def EventFlags.raise (e : EventFlags) : EventFlag → EventFlags
  | .stray => { e with stray := true }
  | .merge => { e with merge := true }
  | .periodMismatch => { e with periodMismatch := true }
  | .addressClash => { e with addressClash := true }
  | .markGap => { e with markGap := true }
  | .markTooOld => { e with markTooOld := true }
  | .missed => { e with missed := true }
  | .poolExhausted => { e with poolExhausted := true }
  | .markOutOverrun => { e with markOutOverrun := true }
  | .driveTimeout => { e with driveTimeout := true }
  | .driveMismatch => { e with driveMismatch := true }
  | .txFault => { e with txFault := true }
  | .requestRefused => { e with requestRefused := true }
  | .restarted => { e with restarted := true }

/-- R192: the flag bits 0 to 13, in their order. -/
def EventFlag.ordered : List EventFlag :=
  [.stray, .merge, .periodMismatch, .addressClash, .markGap, .markTooOld, .missed, .poolExhausted,
    .markOutOverrun, .driveTimeout, .driveMismatch, .txFault, .requestRefused, .restarted]

/-- A word from its bits, bit 0 first. -/
def wordOfBits : List Bool → Nat
  | [] => 0
  | b :: rest => b.toNat + 2 * wordOfBits rest

/-- R192: the event flags as the two bytes of report page 1; bits 15 and 14 are sent 0. -/
def EventFlags.toHalf (e : EventFlags) : Half := BitVec.ofNat 16 (wordOfBits (EventFlag.ordered.map e.has))

/-- The value of a counter. -/
def Counters.value (c : Counters) : CounterName → Nat
  | .strays => c.strays
  | .merges => c.merges
  | .lateFires => c.lateFires
  | .missed => c.missed
  | .lostMarks => c.lostMarks
  | .duplicates => c.duplicates
  | .poolRefusals => c.poolRefusals
  | .markOutDrops => c.markOutDrops
  | .txFaults => c.txFaults
  | .refusedRequests => c.refusedRequests
  | .rxRejects => c.rxRejects
  | .acceptedFrames => c.acceptedFrames

/-- R163: an increment stops at 65,535. -/
def saturate (n : Nat) : Nat := min Config.counterMax n

/-- R163: a counter increased by `by_`, saturating. -/
def Counters.bump (c : Counters) (by_ : Nat) : CounterName → Counters
  | .strays => { c with strays := saturate (c.strays + by_) }
  | .merges => { c with merges := saturate (c.merges + by_) }
  | .lateFires => { c with lateFires := saturate (c.lateFires + by_) }
  | .missed => { c with missed := saturate (c.missed + by_) }
  | .lostMarks => { c with lostMarks := saturate (c.lostMarks + by_) }
  | .duplicates => { c with duplicates := saturate (c.duplicates + by_) }
  | .poolRefusals => { c with poolRefusals := saturate (c.poolRefusals + by_) }
  | .markOutDrops => { c with markOutDrops := saturate (c.markOutDrops + by_) }
  | .txFaults => { c with txFaults := saturate (c.txFaults + by_) }
  | .refusedRequests => { c with refusedRequests := saturate (c.refusedRequests + by_) }
  | .rxRejects => { c with rxRejects := saturate (c.rxRejects + by_) }
  | .acceptedFrames => { c with acceptedFrames := saturate (c.acceptedFrames + by_) }

namespace State

/-- R158: the block's event sets its flag. -/
def setFlag (s : State) (f : EventFlag) : State := { s with fru := { s.fru with events := s.fru.events.raise f } }

/-- R163: the block's event counts in its counter. -/
def countBy (s : State) (c : CounterName) (by_ : Nat) : State :=
  { s with fru := { s.fru with counters := s.fru.counters.bump by_ c } }

/-- R163: a count of one. -/
def count (s : State) (c : CounterName) : State := s.countBy c 1

/-- R160: true in CONFIGURING, in HALTED and in LISTEN, false in LOCKED. -/
def notLocked (s : State) : Bool := !s.locked

/-- R192: the sixteen flags in mask order: event flags, NOT_LOCKED, MUTED. -/
def flagBits (s : State) : List Bool := EventFlag.ordered.map s.fru.events.has ++ [s.notLocked, s.muted]

/-- R161: some flag that is set, or true, has its mask bit set. -/
def flagUnderMask (s : State) : Bool :=
  (List.range 16).any fun i => s.flagBits.getD i false && s.fru.mask.getLsbD i

/-- R161, R162: the FAULT line is active. -/
def faultLine (s : State) : Bool :=
  match s.cfl.run with
  | .configuring => false
  | .halted => true
  | .running => s.flagUnderMask

end State

end Sys2Proof.Machine
end

