-- ==== Sys2Proof/Machine/DriveClaims.lean ====
section
/-! DEFINITION. The Drive Claim Unit (R91 to R97): claim counts, demand and on-time countdowns. -/

namespace Sys2Proof.Machine

namespace DriveLine

/-- R94: the demand is active exactly when the claim count is above zero. -/
def demand (d : DriveLine) : Level := if 0 < d.claim then .active else .inactive

/-- R92, R96: a fired ASSERT adds one claim; the change from 0 to 1 starts the countdown of a line with a limit, and
the local tick in which it starts does not count. -/
def addClaim (d : DriveLine) : DriveLine :=
  if d.claim = 0 ∧ d.limit ≠ 0 then
    { d with claim := 1, countdown := some (Config.onTimeUnit * d.limit), counted := true }
  else { d with claim := d.claim + 1 }

/-- R92, R96: a release takes one claim; the change to 0 stops and clears the countdown. -/
def dropClaim (d : DriveLine) : DriveLine :=
  { d with claim := d.claim - 1, countdown := if d.claim ≤ 1 then none else d.countdown }

end DriveLine

namespace Dcu

/-- The DCU with line `n` changed by `f`. -/
def onLine (d : Dcu) (n : LineId) (f : DriveLine → DriveLine) : Dcu := { d with lines := d.lines.modify n f }

/-- R92: a fired step's effect on the claim counts. -/
def fire (d : Dcu) (op : StepOp) (n : LineId) : Dcu :=
  match op with
  | .assert => d.onLine n DriveLine.addClaim
  | .release => d.onLine n DriveLine.dropClaim
  | .noOp => d

/-- R93: a cancellation releases every line of the action's held set. -/
def releaseAll (d : Dcu) (held : HeldSet) : Dcu :=
  { d with lines := Table.ofFn fun n => if held.get n then (d.lines.get n).dropClaim else d.lines.get n }

end Dcu

end Sys2Proof.Machine
end

