-- ==== Sys2Proof/Machine/Schedules.lean ====
section
/-! DEFINITION. The Action Scheduler (R62 to R86): filing, passes, admission, cancellation, and the care of due points. -/

namespace Sys2Proof.Machine

/-- What a domain says of its due points: when one is due, when one is at or before another, and a gap added. -/
structure DomainRules (δ : Type) where
  isDue : δ → Bool
  atOrBefore : δ → δ → Bool
  addGap : δ → Nat → δ

/-- R68, R74: the time domain, against the instant of a pass. -/
def timeRules (period : Nat) (now : Instant) : DomainRules Instant :=
  { isDue := fun d => Instant.atOrBefore period d now
    atOrBefore := Instant.atOrBefore period
    addGap := Instant.add period }

/-- R69: the travel domain, against the travel position: a due point is due when its distance ahead is zero or less. -/
def travelRules (position : Word) : DomainRules Word :=
  { isDue := fun q => decide (signedDifference q position ≤ 0)
    atOrBefore := fun a b => decide (signedDifference a position ≤ signedDifference b position)
    addGap := fun q gap => q + BitVec.ofNat 32 gap }

/-- What a pass or a cancellation of one domain works on: its schedule, the free stack and the DCU. -/
structure Pool (δ : Type) where
  schedule : List (Action δ)
  free : List (Fin 48)
  dcu : Dcu
  deriving DecidableEq, Repr

/-- R67: an action is filed behind every action whose due point is at or before its own. -/
def fileAction {δ : Type} (r : DomainRules δ) (a : Action δ) : List (Action δ) → List (Action δ)
  | [] => [a]
  | x :: rest => if r.atOrBefore x.due a.due then x :: fileAction r a rest else a :: x :: rest

/-- R64, R77: the held set after a step. -/
def heldAfter (op : StepOp) (n : LineId) (held : HeldSet) : HeldSet :=
  match op with
  | .assert => held.set n true
  | .release => held.set n false
  | .noOp => held

/-- R78: step `k` of a template is its last step in use. -/
def Template.lastStep (t : Template) (k : Fin 4) : Bool := decide (t.count ≤ k.val + 1 ∨ k.val = 3)

/-- The step index after `k`. -/
def nextIndex (k : Fin 4) : Fin 4 := ⟨min 3 (k.val + 1), by omega⟩

/-- R77 to R79: one turn of a pass: the head's step is fired into the DCU, and the action is retired, its slot going to
the top of the free stack, or re-filed at its old due point plus the step's gap. -/
def fireHead {δ : Type} (r : DomainRules δ) (templates : Table Template 16) (a : Action δ) (rest : List (Action δ))
    (p : Pool δ) : Pool δ :=
  let t := templates.get a.template
  let step := t.steps.get a.next
  let dcu := p.dcu.fire step.op step.line
  if t.lastStep a.next then { schedule := rest, free := a.slot :: p.free, dcu := dcu }
  else
    { schedule := fileAction r
        { a with due := r.addGap a.due step.gap.toNat, next := nextIndex a.next,
                 held := heldAfter step.op step.line a.held } rest
      free := p.free, dcu := dcu }

/-- R76: a pass fires heads for as long as the head is due, at most `fuel` of them. -/
def Pool.passN {δ : Type} (r : DomainRules δ) (templates : Table Template 16) : Nat → Pool δ → Pool δ
  | 0, p => p
  | fuel + 1, p =>
    match p.schedule with
    | [] => p
    | a :: rest => if r.isDue a.due then Pool.passN r templates fuel (fireHead r templates a rest p) else p

/-- R76: a whole pass. Every turn fires a step and every action has at most four, so four turns for each action of the
schedule reach its end. -/
def Pool.pass {δ : Type} (r : DomainRules δ) (templates : Table Template 16) (p : Pool δ) : Pool δ :=
  Pool.passN r templates (4 * p.schedule.length) p

/-- R81: actions cancelled from head to tail: each one's held lines are released and its slot goes to the top. -/
def cancelList {δ : Type} (which : Action δ → Bool) :
    List (Action δ) → List (Fin 48) → Dcu → Pool δ
  | [], free, dcu => { schedule := [], free := free, dcu := dcu }
  | a :: rest, free, dcu =>
    if which a then cancelList which rest (a.slot :: free) (dcu.releaseAll a.held)
    else
      let p := cancelList which rest free dcu
      { p with schedule := a :: p.schedule }

namespace State

/-- The time domain's pool. -/
def timePool (s : State) : Pool Instant := { schedule := s.asc.time, free := s.asc.free, dcu := s.dcu }

/-- The travel domain's pool. -/
def travelPool (s : State) : Pool Word := { schedule := s.asc.travel, free := s.asc.free, dcu := s.dcu }

/-- The state with a time pool put back. -/
def putTimePool (s : State) (p : Pool Instant) : State :=
  { s with asc := { s.asc with time := p.schedule, free := p.free }, dcu := p.dcu }

/-- The state with a travel pool put back. -/
def putTravelPool (s : State) (p : Pool Word) : State :=
  { s with asc := { s.asc with travel := p.schedule, free := p.free }, dcu := p.dcu }

/-- The time domain's rules at the present instant. -/
def timeDomain (s : State) : DomainRules Instant := timeRules s.period s.now

/-- The travel domain's rules at the present position. -/
def travelDomain (s : State) : DomainRules Word := travelRules s.tvu.position

/-- R74: a pass of the time schedule against the present instant. -/
def timePass (s : State) : State := s.putTimePool (s.timePool.pass s.timeDomain s.sbs.templates)

/-- R75: a pass of the travel schedule against the present position. -/
def travelPass (s : State) : State := s.putTravelPool (s.travelPool.pass s.travelDomain s.sbs.templates)

/-- R81: the cancellation of the actions that hold given lines, of the time schedule and then of the travel
schedule, each from head to tail; `which` sees an action's held set. -/
def cancelWhere (s : State) (which : HeldSet → Bool) : State :=
  let s1 := s.putTimePool (cancelList (fun a => which a.held) s.asc.time s.asc.free s.dcu)
  s1.putTravelPool (cancelList (fun a => which a.held) s1.asc.travel s1.asc.free s1.dcu)

/-- R83: the answer to a forced release of line `n`. -/
def cancelByLine (s : State) (n : LineId) : State := s.cancelWhere fun held => held.get n

/-- R82: every pending action is cancelled. -/
def cancelAll (s : State) : State := s.cancelWhere fun _ => true

/-- R97: the forced release of line `n` at the expiry of its countdown. -/
def forcedRelease (s : State) (n : LineId) : State :=
  ((s.setFlag .driveTimeout).mapDrive n fun d => { d with countdown := none }).cancelByLine n

/-- R97: the expiry of line `n`'s countdown, which is its count of this tick (assumption log 14). -/
def expireOnTime (s : State) (n : LineId) : State :=
  (s.mapDrive n fun d => { d with counted := true }).forcedRelease n

/-- R64, R73: the record of an action admitted into `slot`. -/
def newAction {δ : Type} (slot : Fin 48) (due : δ) (template : Fin 16) : Action δ :=
  { slot := slot, due := due, template := template, next := 0, held := Table.fill 8 false }

/-- R70: the lateness of a TIME request: the distance from its due point to the present instant. -/
def timeLateness (s : State) (due : Instant) : Int := Instant.distance s.period due s.now

/-- R70: the lateness of a TRAVEL request: the present position less the due point. -/
def travelLateness (s : State) (due : Word) : Int := signedDifference s.tvu.position due

/-- R71: a request refused as missed. -/
def refuseMissed (s : State) : State := (s.setFlag .missed).count .missed

/-- R72: a request refused for want of a slot. -/
def refuseNoSlot (s : State) : State := (s.setFlag .poolExhausted).count .poolRefusals

/-- R70 to R73: a schedule request of the time domain. A request whose lateness is exactly 0 waits, and a late one fires
at once, as R73 says; that this holds too where R87 and R89 speak of the events of one tick in other words is the
model's choice (DESIGN CHOICE, assumption logs 34 and 35), as is the lateness of one tick beside R46 where the filter
interval of a local mark took in one advance more than its filter width (DESIGN CHOICE, assumption log 37). -/
def admitTime (s : State) (due : Instant) (template : Fin 16) : State :=
  if (s.timeLateLimit : Int) < s.timeLateness due then s.refuseMissed
  else match s.asc.free with
    | [] => s.refuseNoSlot
    | slot :: free =>
      let s1 := { s with asc := { s.asc with
        free := free, time := fileAction s.timeDomain (newAction slot due template) s.asc.time } }
      if 0 < s.timeLateness due then (s1.count .lateFires).timePass else s1

/-- R70 to R73: a schedule request of the travel domain, with the same choice (R88, R89; assumption logs 34 and 35). -/
def admitTravel (s : State) (due : Word) (template : Fin 16) : State :=
  if (s.travelLateLimit : Int) < s.travelLateness due then s.refuseMissed
  else match s.asc.free with
    | [] => s.refuseNoSlot
    | slot :: free =>
      let s1 := { s with asc := { s.asc with
        free := free, travel := fileAction s.travelDomain (newAction slot due template) s.asc.travel } }
      if 0 < s.travelLateness due then (s1.count .lateFires).travelPass else s1

/-- R85: a merge's timeline shift of the time schedule. -/
def shiftTimeSchedule (s : State) (ticks : Nat) : State :=
  { s with asc := { s.asc with
    time := s.asc.time.map fun a => { a with due := Instant.add s.period a.due ticks } } }

/-- R86: a ZERO rebase of the travel schedule by the old position `x`. -/
def rebaseTravelSchedule (s : State) (x : Word) : State :=
  { s with asc := { s.asc with travel := s.asc.travel.map fun a => { a with due := a.due - x } } }

/-- R69: the tail test of a backward count change: a tail whose distance ahead has become -2^31 moves to the head. -/
def tailTest (s : State) : State :=
  match s.asc.travel.getLast? with
  | none => s
  | some a =>
    if signedDifference a.due s.tvu.position = -2147483648 then
      { s with asc := { s.asc with travel := a :: s.asc.travel.dropLast } }
    else s

end State

/-! ### The drive command -/

/-- ON_TIME_EXPIRY (R97): the tick in which the countdown of the line runs out, which it has not counted yet
(assumption log 14). -/
def execOnTimeExpiry (n : LineId) (s : State) : Host.Outcome State Fault Refusal :=
  .next (if s.running = true ∧ (s.drive n).countdown = some 1 ∧ (s.drive n).counted = false then
    s.expireOnTime n else s)

end Sys2Proof.Machine
end

