-- ==== Sys2Proof/Machine/Travel.lean ====
section
/-! DEFINITION. The Travel Unit (R104 to R115): counting, the travel history, the position at an instant, the ZERO rebase. -/

namespace Sys2Proof.Machine

/-- A count change of +1 or -1 (R106, R107). -/
inductive CountChange where
  | forward
  | backward
  deriving DecidableEq, Repr

/-- R107: the direction of a QUAD count: for an edge of phase A, rising with B low or falling with B high is forward;
for an edge of phase B, rising with A high or falling with A low is forward. -/
def quadDirection (phaseA rising otherHigh : Bool) : CountChange :=
  if phaseA then (if rising != otherHigh then .forward else .backward)
  else (if rising == otherHigh then .forward else .backward)

/-- R113: `a` plus the share `num / den` of the signed difference `b - a`, truncated toward zero. -/
def interpolate (a b : Word) (num den : Nat) : Word :=
  a + BitVec.ofInt 32 ((signedDifference b a * (num : Int)).tdiv (den : Int))

/-- R112: the position of the history's entry for a cycle. -/
def historyPosition (history : List HistoryEntry) (cycle : Word) : Option Word :=
  (history.find? fun e => e.cycle == cycle).map HistoryEntry.position

/-- R124: the first-sight position of a SENSE line's record, reduced by the old position `x`. -/
def LocalLine.rebaseRecord (x : Word) (l : LocalLine) : LocalLine :=
  { l with record := l.record.map fun r : FilterRecord =>
    { r with stamp := r.stamp.map fun st : Stamp => { st with position := st.position - x } } }

/-- R115: a history entry with its position reduced by `x`. -/
def HistoryEntry.rebase (x : Word) (e : HistoryEntry) : HistoryEntry := { e with position := e.position - x }

namespace State

/-- R109, R75, R69: a count change: the position moves by one, a backward change takes the tail test, and a pass of the
travel schedule follows. -/
def countChange (s : State) (d : CountChange) : State :=
  match d with
  | .forward => State.travelPass { s with tvu := { s.tvu with position := s.tvu.position + 1#32 } }
  | .backward => (State.tailTest { s with tvu := { s.tvu with position := s.tvu.position - 1#32 } }).travelPass

/-- R110: the history's append at a cycle-boundary event for cycle `c`: nothing when the newest entry already names it,
else the new entry behind the newest, the oldest of sixteen giving way. -/
def historyAppend (s : State) (c : Word) : State :=
  if (s.tvu.history.getLast?.map HistoryEntry.cycle) = some c then s
  else
    let kept := if Config.historyPlaces ≤ s.tvu.history.length then s.tvu.history.drop 1 else s.tvu.history
    { s with tvu := { s.tvu with history := kept ++ [{ cycle := c, position := s.tvu.position }] } }

/-- R111: the history restarted at a merge. -/
def historyRestart (s : State) (c : Word) : State :=
  { s with tvu := { s.tvu with history := [{ cycle := c, position := s.tvu.position }] } }

/-- R112, R113: the travel position at a capture instant; `none` is the answer "too old". The history of a LOCKED
station holds the entries the last two cases name (R110); without them the answer is too old (assumption log 16). -/
def positionAt (s : State) (i : Instant) : Option Word :=
  let n := s.now
  let ahead := (i.cycle - n.cycle).toInt
  if 0 < ahead ∨ (i.cycle = n.cycle ∧ n.phase ≤ i.phase) then some s.tvu.position
  else match s.tvu.history with
    | [] => none
    | oldest :: _ =>
      if (i.cycle - oldest.cycle).toInt < 0 then none
      else if i.cycle = n.cycle then
        match historyPosition s.tvu.history n.cycle with
        | some a => some (interpolate a s.tvu.position i.phase n.phase)
        | none => none
      else
        match historyPosition s.tvu.history i.cycle, historyPosition s.tvu.history (i.cycle + 1#32) with
        | some a, some b => some (interpolate a b i.phase s.period)
        | _, _ => none

/-- R124: the first-sight positions of the SENSE records, reduced by the old position `x`. -/
def rebaseRecords (s : State) (x : Word) : State :=
  s.mapLines (LocalLine.rebaseRecord x)

/-- R115: the ZERO rebase, every stored position reduced in one event. -/
def zeroRebase (s : State) : State :=
  let x := s.tvu.position
  let s1 := { s with tvu := { s.tvu with
    position := 0#32, history := s.tvu.history.map (HistoryEntry.rebase x) } }
  (s1.rebaseTravelSchedule x).rebaseRecords x

end State

end Sys2Proof.Machine
end

