-- ==== Sys2Proof/Machine/Subscriptions.lean ====
section
/-! DEFINITION. The Subscription Store at run time (R31 to R37): lookups, qualifiers, the last-seen sequence, shadow delays. -/

namespace Sys2Proof.Machine

/-- R26: entry bank × 8 + channel. -/
def entryIndex (bank channel : Fin 8) : Fin 64 := ⟨bank.val * 8 + channel.val, by omega⟩

namespace State

/-- The state with subscription entry `i` changed by `f`. -/
def mapEntry (s : State) (i : Fin 64) (f : Entry → Entry) : State :=
  { s with sbs := { s.sbs with entries := s.sbs.entries.modify i f } }

/-- A subscription entry. -/
def entry (s : State) (i : Fin 64) : Entry := s.sbs.entries.get i

/-- R31: a lookup by source address and channel; `none` is "not mapped" or "not subscribed". -/
def lookup (s : State) (source : Address) (channel : Fin 8) : Option (Fin 64) :=
  match s.sbs.sourceMap.get ⟨source.toNat, source.isLt⟩ with
  | none => none
  | some bank => if (s.entry (entryIndex bank channel)).valid then some (entryIndex bank channel) else none

/-- R33: a qualifier is met by the filtered level of its line; an absent one by every mark. -/
def qualifierMet (s : State) (q : Option Qualifier) : Bool :=
  match q with
  | none => true
  | some q => (s.line q.line).filtered == q.level

/-- R37: the shadow load of a cycle-boundary event, over all 64 entries. -/
def shadowLoad (s : State) : State :=
  { s with sbs := { s.sbs with entries := s.sbs.entries.map fun e =>
    { e with delay := e.shadow.getD e.delay, shadow := none } } }

/-- R35: a RETIME that passed the tag check; `none` is a refusal. -/
def takeRetime (s : State) (number : Byte) (delay : BitVec 24) : Option State :=
  if h : number.toNat < 64 then
    if (s.entry ⟨number.toNat, h⟩).valid then
      some (s.mapEntry ⟨number.toNat, h⟩ fun e => { e with shadow := some delay })
    else none
  else none

end State

end Sys2Proof.Machine
end

