-- ==== Sys2Proof/Machine/Marks.lean ====
section
/-! DEFINITION. The Mark Unit (R42 to R60): captures and their routes, the receive steps, the mark-out queue. -/

namespace Sys2Proof.Machine

/-- R56: the capture cycle that has the carried low bits and lies nearest the receiver's own cycle; a difference of
32,768 is read as -32,768. -/
def rebuildCycle (own : Word) (carried : Half) : Word := own + (carried - own.setWidth 16).signExtend 32

/-- R55: the sequence numbers that lie strictly between `m` and `s` going forward. -/
def sequenceGap (m s : Byte) : Nat := (s - m - 1#8).toNat

namespace State

/-- R55: the write of the last-seen sequence. -/
def sawSequence (s : State) (i : Fin 64) (seq : Byte) : State :=
  s.mapEntry i fun e => { e with lastSeen := some seq }

/-- R55: step 4, the sequence test; `none` is a duplicate, whose processing ends. -/
def sequenceTest (s : State) (i : Fin 64) (seq : Byte) : Option State :=
  match (s.entry i).lastSeen with
  | none => some (s.sawSequence i seq)
  | some m =>
    if m = seq then none
    else if sequenceGap m seq = 0 then some (s.sawSequence i seq)
    else some (((s.sawSequence i seq).setFlag .markGap).countBy .lostMarks (sequenceGap m seq))

/-- R58 to R60: steps 7 and 8 for entry `i`: the due point and the schedule request. `position` answers for the
position at the capture instant; `none` is too old. -/
def requestFor (s : State) (i : Fin 64) (capture : Instant) (position : Option Word) : State :=
  let e := s.entry i
  match e.domain with
  | .time => s.admitTime (Instant.add s.period capture e.delay.toNat) e.template
  | .travel =>
    match position with
    | none => s.setFlag .markTooOld
    | some p => s.admitTravel (p + e.delay.setWidth 32) e.template

/-- R52, R45: steps 2 to 8, shared by the two routes, for a mark whose full capture instant is known. The position
at that instant is asked of `position` in the state in which step 7 is taken. -/
def processMark (s : State) (source : Address) (channel : Fin 8) (seq : Byte) (capture : Instant)
    (position : State → Option Word) : State :=
  match s.lookup source channel with
  | none => s
  | some i =>
    match s.sequenceTest i seq with
    | none => s.count .duplicates
    | some s1 =>
      if s1.qualifierMet (s1.entry i).qualifier then s1.requestFor i capture (position s1) else s1

/-- R52: a received mark, from step 1. -/
def receiveMark (s : State) (source : Address) (channel : Fin 8) (seq : Byte) (cycleLow phase : Half) : State :=
  if s.locked = true ∧ phase.toNat < s.period then
    let capture : Instant := { cycle := rebuildCycle s.now.cycle cycleLow, phase := phase.toNat }
    s.processMark source channel seq capture fun s1 => s1.positionAt capture
  else s

/-- R45: the local route: a mark from the station's own address with the capture's own instant and position. -/
def localRoute (s : State) (channel : Fin 8) (seq : Byte) (capture : Instant) (position : Word) : State :=
  s.processMark s.cfl.address channel seq capture fun _ => some position

/-- R48: the publish route. The queue keeps the order of acceptance (R51), whatever the instants; where the orders of
events in one tick (R134, R126) make an instant lower than the one ahead of it, the capture stands as it came (DESIGN
CHOICE, assumption log 36). -/
def publishRoute (s : State) (channel : Fin 8) (seq : Byte) (capture : Instant) : State :=
  if s.mku.queue.length < Config.markOutPlaces then
    { s with mku := { s.mku with
      queue := s.mku.queue ++ [{ channel := channel, sequence := seq, instant := capture }] } }
  else (s.setFlag .markOutOverrun).count .markOutDrops

/-- R43, R44: the MKU takes a capture: it draws a sequence number when a route flag is set, and runs each route. -/
def takeCapture (s : State) (settings : LineSettings) (capture : Instant) (position : Word) : State :=
  if settings.publish || settings.localRoute then
    let seq := s.mku.counters.get settings.channel
    let s1 := { s with mku := { s.mku with counters := s.mku.counters.set settings.channel (seq + 1#8) } }
    let s2 := if settings.localRoute then s1.localRoute settings.channel seq capture position else s1
    if settings.publish then s2.publishRoute settings.channel seq capture else s2
  else s

/-- R50: a merge's timeline shift of the mark-out queue. -/
def shiftQueue (s : State) (ticks : Nat) : State :=
  { s with mku := { s.mku with
    queue := s.mku.queue.map fun q => { q with instant := Instant.add s.period q.instant ticks } } }

end State

end Sys2Proof.Machine
end

