-- ==== Sys2Proof/Machine/LocalLines.lean ====
section
/-! DEFINITION. The Local Line Unit (R118 to R135): input filter, captures and dead time, presented levels, cycle pulses, read-back, and the commands of the local lines. -/

namespace Sys2Proof.Machine

/-- R120: an edge to `level` is of a selected kind. -/
def EdgeSelection.selects (e : EdgeSelection) (level : Level) : Bool :=
  match e with
  | .rising => level == .active
  | .falling => level == .inactive
  | .both => true
  | .unassigned => false

namespace LocalLine

/-- R122: at acceptance the filtered level becomes the pending level and the record is removed. -/
def accept (l : LocalLine) (level : Level) : LocalLine := { l with filtered := level, record := none }

/-- R127: a capture starts the dead time; the local tick in which it starts does not count. -/
def startDeadTime (l : LocalLine) : LocalLine := { l with deadTime := l.settings.deadTime, deadCounted := true }

/-- R131: a cycle-boundary event begins the pulse of a CYCLE_OUT line; the tick in which it begins does not count. -/
def startPulse (l : LocalLine) : LocalLine :=
  if l.settings.function = .cycleOut then { l with pulse := l.settings.pulseWidth, pulseCounted := true } else l

/-- R124: a merge's timeline shift of a SENSE record that holds an instant. -/
def shiftRecord (period ticks : Nat) (l : LocalLine) : LocalLine :=
  { l with record := l.record.map fun r : FilterRecord => { r with stamp := r.stamp.map fun st : Stamp =>
    { st with instant := st.instant.map fun i => Instant.add period i ticks } } }

/-- R129, R131, R130: the level that the refresh of a tick presents. -/
def refresh (l : LocalLine) (demand : Level) : LocalLine :=
  match l.settings.function with
  | .drive => { l with presented := some demand }
  | .cycleOut => { l with presented := some (if 0 < l.pulse then .active else .inactive) }
  | .unused => { l with presented := none }
  | .sense => { l with presented := none }
  | .zero => { l with presented := none }
  | .enc => { l with presented := none }

/-- The level that the pin of a driven line shows: the presented level, unless something outside holds the pin
(assumption log 15). -/
def pinLevel (l : LocalLine) : Option Level :=
  match l.pinHeld with
  | some h => some h
  | none => l.presented

end LocalLine

namespace State

/-- R123, R126: an accepted SENSE edge to `level` on line `n`, with its record's stamp. -/
def senseEdge (s : State) (n : LineId) (level : Level) (stamp : Option Stamp) : State :=
  let l := s.line n
  if l.settings.edges.selects level = true ∧ l.deadTime = 0 then
    match stamp with
    | some { instant := some i, position := p } =>
      (s.mapLine n LocalLine.startDeadTime).takeCapture l.settings i p
    | some { instant := none, position := _ } => s
    | none => s
  else s

/-- R105 to R107: the TVU takes an accepted ENC edge to `level` on line `n`; in QUAD mode L6 is phase A and L7 phase B,
and the other phase's filtered level is read as it stands. -/
def encoderEdge (s : State) (n : LineId) (level : Level) : State :=
  match s.tvu.mode with
  | .none => s
  | .pulse => if n = 6 ∧ level = .active then s.countChange .forward else s
  | .quad =>
    if n = 6 then s.countChange (quadDirection true (level == .active) ((s.line 7).filtered == .active))
    else if n = 7 then s.countChange (quadDirection false (level == .active) ((s.line 6).filtered == .active))
    else s

/-- R122: the acceptance of the edge of a record, handed on by the line's function (R123, R128). -/
def acceptEdge (s : State) (n : LineId) (r : FilterRecord) : State :=
  let s1 := s.mapLine n fun l => l.accept r.pending
  match s.functionOf n with
  | .sense => s1.senseEdge n r.pending r.stamp
  | .zero => if (s.line n).settings.edges.selects r.pending then s1.zeroRebase else s1
  | .enc => s1.encoderEdge n r.pending
  | .unused => s1
  | .drive => s1
  | .cycleOut => s1

/-- R121: the record made at a first sight; a SENSE line's holds the line instant, absent in LISTEN, and the travel
position, as they stand at the event. R134 lets it come ahead of its tick's advance or behind it; that two lines' first
sights of one tick may stand on both sides of it, beside R51, and that one ahead of it may meet an acceptance behind a
later one, beside R46, is the model's choice (DESIGN CHOICE, assumption logs 36 and 37). -/
def firstSightRecord (s : State) (n : LineId) : FilterRecord :=
  { pending := (s.line n).filtered.other
    remaining := (s.line n).settings.filterWidth
    stamp := if s.functionOf n = .sense then
        some { instant := if s.locked then some s.now else none, position := s.tvu.position }
      else none }

/-- The mark that line `n`'s sample of this tick has been taken (assumption log 14). -/
def markSampled (s : State) (n : LineId) : State := s.mapLine n fun l => { l with sampled := true }

/-- R121, R122: a first sight: a width of 0 is accepted in the same event. -/
def sightLine (s : State) (n : LineId) : State :=
  let r := s.firstSightRecord n
  if r.remaining = 0 then (s.markSampled n).acceptEdge n r
  else (s.markSampled n).mapLine n fun l => { l with record := some r }

/-- R122: the sample of a tick in which the pin of line `n` keeps its level: a present record is taken forward, and
one that runs out is accepted as by its command. -/
def sampleLine (s : State) (n : LineId) : State :=
  match (s.line n).record with
  | none => s
  | some r =>
    if r.remaining ≤ 1 then (s.markSampled n).acceptEdge n r
    else s.mapLine n fun l => { l with record := some { r with remaining := r.remaining - 1 } }

/-- R131: the pulses of a cycle-boundary event. -/
def startPulses (s : State) : State := s.mapLines LocalLine.startPulse

/-- R124: a merge's timeline shift of the filter records. -/
def shiftRecords (s : State) (ticks : Nat) : State := s.mapLines (LocalLine.shiftRecord s.period ticks)

/-- R120, R130: the level to which the station drives pin Ln, high or low; none when it does not drive it. -/
def outputPin (s : State) (n : LineId) : Option Bool :=
  (s.line n).presented.map fun l => l.toPin (s.line n).settings.polarity

/-- R132: a comparison that agrees. -/
def readBackAgrees (s : State) (n : LineId) : State :=
  s.mapLine n fun l => { l with mismatchTimer := 0, mismatch := false }

/-- R132: a comparison that differs: the timer counts, and from its 64th tick the indicator and the flag are set. -/
def readBackDiffers (s : State) (n : LineId) : State :=
  if Config.mismatchTicks ≤ (s.line n).mismatchTimer + 1 then
    (s.mapLine n fun l => { l with mismatchTimer := Config.mismatchTicks, mismatch := true }).setFlag .driveMismatch
  else s.mapLine n fun l => { l with mismatchTimer := l.mismatchTimer + 1 }

/-- R132: the read-back comparison of a tick on line `n`, made on DRIVE lines that are driven. -/
def compareLine (s : State) (n : LineId) : State :=
  if s.functionOf n = .drive ∧ (s.line n).presented ≠ none then
    if (s.line n).pinLevel = (s.line n).presented then s.readBackAgrees n else s.readBackDiffers n
  else s

end State

/-! ### The commands of the local lines

Each is a part of a tick of its line, and a tick has each part once (assumption log 14): one sample (R121, R122), one
count of the dead time (R127) and of the pulse (R131), neither in the tick that starts it, and one comparison (R132). -/

/-- FIRST_SIGHT (R121): on a sampled line with no record. -/
def execFirstSight (n : LineId) (s : State) : Host.Outcome State Fault Refusal :=
  .next (if s.running = true ∧ (s.functionOf n).sampled = true ∧ (s.line n).record = none ∧
      (s.line n).sampled = false then s.sightLine n else s)

/-- FILTER_REVERSION (R122): the record is removed, with no edge. -/
def execFilterReversion (n : LineId) (s : State) : Host.Outcome State Fault Refusal :=
  .next (if s.running = true ∧ (s.line n).record ≠ none ∧ (s.line n).sampled = false then
    (s.markSampled n).mapLine n fun l => { l with record := none } else s)

/-- EDGE_ACCEPT (R122): the sample that equals the pending level of a record whose width runs out. -/
def execEdgeAccept (n : LineId) (s : State) : Host.Outcome State Fault Refusal :=
  .next (match (s.line n).record with
    | none => s
    | some r => if s.running = true ∧ r.remaining ≤ 1 ∧ (s.line n).sampled = false then (s.markSampled n).acceptEdge n r else s)

/-- DEAD_TIME_EXPIRY (R127): the tick that brings the remainder to 0. -/
def execDeadTimeExpiry (n : LineId) (s : State) : Host.Outcome State Fault Refusal :=
  .next (if s.running = true ∧ (s.line n).deadTime = 1 ∧ (s.line n).deadCounted = false then
    s.mapLine n fun l => { l with deadTime := 0, deadCounted := true } else s)

/-- PULSE_END (R131): the tick that brings the pulse remainder to 0; it is not the tick that set the remainder, in which
a boundary taken first keeps the line ACTIVE (R135). -/
def execPulseEnd (n : LineId) (s : State) : Host.Outcome State Fault Refusal :=
  .next (if s.running = true ∧ (s.line n).pulse = 1 ∧ (s.line n).pulseCounted = false then
    s.mapLine n fun l => { l with pulse := 0, pulseCounted := true } else s)

/-- MISMATCH_DETECTED (R132): a disagreeing comparison of a driven DRIVE pin, which the 64th in a row detects; an
earlier one counts in the timer alone. The pin is at the level that is not the presented one, and is taken to stay there
(assumption log 15). -/
def execMismatchDetected (n : LineId) (s : State) : Host.Outcome State Fault Refusal :=
  .next (match (s.line n).presented with
    | none => s
    | some level =>
      if s.running = true ∧ s.functionOf n = .drive ∧ (s.line n).compared = false then
        (s.readBackDiffers n).mapLine n fun l => { l with compared := true, pinHeld := some level.other }
      else s)

/-- READ_BACK_AGREEMENT (R132): an agreeing comparison of a driven DRIVE pin ends the run; the pin follows its driver
again (assumption log 15). -/
def execReadBackAgreement (n : LineId) (s : State) : Host.Outcome State Fault Refusal :=
  .next (if s.running = true ∧ s.functionOf n = .drive ∧ (s.line n).presented ≠ none ∧
      (s.line n).compared = false then
    (s.readBackAgrees n).mapLine n fun l => { l with compared := true, pinHeld := none } else s)

end Sys2Proof.Machine
end

