-- ==== Sys2Proof/Machine/LinePair.lean ====
section
/-! DEFINITION. The receiving side of the Line Pair Interface (R136 to R156): the decoder's place, frames closed, accepted and rejected, and the end of a mute. -/

namespace Sys2Proof.Machine

/-- R137, R138: the decoder's place one bit time later, on a line that shows no new start bit. -/
def Decoder.advance : Decoder → Decoder
  | .unsynchronised run dominant =>
    if dominant then .unsynchronised 0 false
    else if Config.resyncBits ≤ run + 1 then .outside Config.gapBits
    else .unsynchronised (run + 1) false
  | .outside run => .outside (min Config.gapBits (run + 1))
  | .inside bit heeded => .inside (min Config.longestFrame (bit + 1)) heeded
  | .endSlot left => if left ≤ 1 then .outside 0 else .endSlot (left - 1)

/-- The decoder's place some bit times later, in one formula. -/
def Decoder.advanceBy (n : Nat) (d : Decoder) : Decoder :=
  if n = 0 then d
  else match d with
    | .unsynchronised run dominant =>
      let recessive := if dominant then n - 1 else run + n
      if Config.resyncBits ≤ recessive then .outside Config.gapBits else .unsynchronised recessive false
    | .outside run => .outside (min Config.gapBits (run + n))
    | .inside bit heeded => .inside (min Config.longestFrame (bit + n)) heeded
    | .endSlot left => if n < left then .endSlot (left - n) else .outside (min Config.gapBits (n - max 1 left))

namespace State

/-- R153: the end of a mute. -/
def endMute (s : State) : State :=
  { s with lpi := { s.lpi with
    state := .active, faultCount := 0, acceptedRun := 0, quietCycles := 0, frameStart := false } }

/-- R153: the step of a cycle-boundary event while MUTED. -/
def quietStep (s : State) : State :=
  if s.muted then
    if s.lpi.frameStart then { s with lpi := { s.lpi with quietCycles := 0, frameStart := false } }
    else if Config.muteQuietCycles ≤ s.lpi.quietCycles + 1 then s.endMute
    else { s with lpi := { s.lpi with quietCycles := s.lpi.quietCycles + 1 } }
  else s

/-- R153: a line acceptance of another party's frame while MUTED. -/
def noteAcceptance (s : State) : State :=
  if s.muted then
    if Config.muteAcceptances ≤ s.lpi.acceptedRun + 1 then s.endMute
    else { s with lpi := { s.lpi with acceptedRun := s.lpi.acceptedRun + 1 } }
  else s

/-- R153: the close of a discarded frame; the accepted run is 0 in every state but MUTED. -/
def noteRejection (s : State) : State := { s with lpi := { s.lpi with acceptedRun := 0 } }

/-- The decoder's place. -/
def setDecoder (s : State) (d : Decoder) : State := { s with lpi := { s.lpi with decoder := d } }

/-- R138, R153: a start bit read on the line: the decoder is within a frame, which a SILENT station will not heed
(R150), and while MUTED the frame-start indicator is set. -/
def readStartBit (s : State) : State :=
  { s with lpi := { s.lpi with
    decoder := .inside 0 (s.lpi.state != .silent), frameStart := s.lpi.frameStart || s.muted } }

/-- R138, R153: the same for a frame that is taken whole, start bit and close in one command (assumption log 6). -/
def meetFrame (s : State) : State :=
  { s with lpi := { s.lpi with frameStart := s.lpi.frameStart || s.muted } }

/-- R137: the close of a frame; the interframe gap begins. -/
def closeFrame (s : State) : State := s.setDecoder (.outside 0)

/-- R181: the station is held at the beginning of CONFIGURING. -/
def heldInReset (s : State) : Bool := s.cfl.run == .configuring && s.cfl.read == .notBegun

/-- The station reads no frame of another party: it is held in reset (R181), or a frame of its own is on the wire
(R151, R156; assumption log 7). -/
def readsNoFrame (s : State) : Bool := s.heldInReset || s.lpi.transmission.isSome

/-- R137, R138: the command `i` can stand for the close of the frame that the decoder is within: a frame of its length
ends no later than at bit `bit`. -/
def closesNow (i : Instr) (bit : Nat) : Bool :=
  match i.wireFrame with
  | none => false
  | some f => decide (f.ticks ≤ bit)

/-- The close of another party's frame, with the work of its close. The decoder follows frames in every state; one
whose start bit was read in SILENT is ignored to its close (R150). A frame that comes while the decoder stands outside a
frame is taken whole, its start bit with it (assumption log 6). A decoder that does not know where frames begin reads
only that the line was not recessive (R138). -/
def receiveFrame (s : State) (i : Instr) (work : State → State) : State :=
  if s.readsNoFrame then s
  else match s.lpi.decoder with
    | .unsynchronised _ _ => s.setDecoder (.unsynchronised i.recessiveTail false)
    | .inside bit heeded =>
      if closesNow i bit then
        (if heeded && s.lpi.state != .silent then work s.closeFrame else s.closeFrame)
      else s
    | .outside _ => if s.lpi.state != .silent then work s.meetFrame.closeFrame else s.closeFrame
    | .endSlot _ => if s.lpi.state != .silent then work s.meetFrame.closeFrame else s.closeFrame

/-- R147, R148: the line acceptance of a frame that the station did not send: counted, tested for the own address, and
dispatched. -/
def acceptFrame (source : Address) (dispatch : State → State) (s : State) : State :=
  let s1 := (s.count .acceptedFrames).noteAcceptance
  if source = s1.cfl.address then s1.setFlag .addressClash else dispatch s1

/-- R149: a class that only a RUNNING station (ACTIVE or MUTED) dispatches. -/
def whenRunning (work : State → State) (s : State) : State := if s.running then work s else s

/-- R147: the close of a discarded frame; a frame the station finds malformed carries its own reject mark. -/
def rejectFrame (f : WireFrame) (s : State) : State :=
  (if f.malformed then s.count .rxRejects else s).noteRejection

end State

/-! ### Commands of the receiving side -/

/-- FRAME_REJECTED (R147). -/
def execFrameRejected (f : WireFrame) (s : State) : Host.Outcome State Fault Refusal :=
  .next (s.receiveFrame (.frameRejected f) (State.rejectFrame f))

/-- MARK (R52, R149); the unused bits of its first byte are ignored (R190). -/
def execMark (source : Address) (channel : Byte) (sequence : Byte) (cycleLow phase : Half) (s : State) :
    Host.Outcome State Fault Refusal :=
  .next (s.receiveFrame (.mark source channel sequence cycleLow phase)
    (State.acceptFrame source (State.whenRunning fun s1 => s1.receiveMark source (markChannel channel) sequence cycleLow phase)))

/-- REPORT, and the classes 6 and 7 (R149): counted and ignored. -/
def execReport (source : Address) (content : ReportContent) (s : State) :
    Host.Outcome State Fault Refusal :=
  .next (s.receiveFrame (.report source content) (State.acceptFrame source fun s1 => s1))

/-- RECEIVE_DECODER_OUTSIDE_FRAME (R138): 140 recessive bit times are more than an interframe gap, so the line is idle
at once (assumption log 21). -/
def execReceiveDecoderOutsideFrame (s : State) : Host.Outcome State Fault Refusal :=
  .next (if s.heldInReset then s
    else match s.lpi.decoder with
    | .unsynchronised _ _ => s.setDecoder (.outside Config.gapBits)
    | .outside _ => s
    | .inside _ _ => s
    | .endSlot _ => s)

/-- START_BIT_READ (R138, R153): outside a frame and not sending. A decoder that does not know its place takes a
dominant bit as part of a frame, and its run of recessive bits begins again behind it (assumption log 22). -/
def execStartBitRead (s : State) : Host.Outcome State Fault Refusal :=
  .next (if s.readsNoFrame then s
    else match s.lpi.decoder with
    | .unsynchronised _ _ => s.setDecoder (.unsynchronised 0 true)
    | .outside _ => s.readStartBit
    | .inside _ _ => s
    | .endSlot _ => s)

end Sys2Proof.Machine
end

