-- ==== Sys2Proof/Machine/LineTime.lean ====
section
/-! DEFINITION. The Line Time Unit (R1 to R24): the cycle, holds, the cycle-boundary event, beacons received, strays and merges. -/

namespace Sys2Proof.Machine

namespace State

/-- The state with the LTU changed by `f`. -/
def mapLtu (s : State) (f : Ltu → Ltu) : State := { s with ltu := f s.ltu }

/-- R13: a withdrawal removes an offered beacon. -/
def withdraw (s : State) : State :=
  s.mapLtu fun l => { l with slot := if l.slot = .offered then .empty else l.slot }

/-- R21: the streak step; `byExpiry` when the boundary is signalled by an expiry. -/
def streakStep (s : State) (byExpiry : Bool) : State :=
  s.mapLtu fun l => { l with
    streak := if byExpiry && l.leadStray && !l.adopted then l.streak + 1 else 0
    leadStray := false, adopted := false }

/-- R10: the cycle-boundary event for cycle `c`: the streak step, the shadow load, the history's append, the cycle
pulses and the quiet-cycle step, which touch different state. -/
def boundary (s : State) (byExpiry : Bool) (c : Word) : State :=
  ((((s.streakStep byExpiry).shadowLoad).historyAppend c).startPulses).quietStep

/-- R9: the beacon slot after an expiry. -/
def slotAfterExpiry (muted : Bool) (slot : BeaconSlot) : BeaconSlot :=
  match slot with
  | .sending => .sending
  | .empty => if muted then .empty else .offered
  | .offered => if muted then .empty else .offered

/-- R9: the expiry of a cycle, and the pass of its advance (R74). The slot is set behind the boundary event, so it sees
the transmit state that the event leaves: a mute that the event itself ends (R153) is over (DEDUCED, assumption log 8). -/
def expireCycle (s : State) : State :=
  let c := s.now.cycle + 1#32
  let s1 := s.mapLtu fun l => { l with instant := { cycle := c, phase := 0 } }
  let s2 := s1.boundary true c
  (s2.mapLtu fun l => { l with slot := slotAfterExpiry s2.muted l.slot }).timePass

/-- R8: an advance of the line instant within the cycle, and its pass (R74). -/
def advancePhase (s : State) : State :=
  State.timePass (s.mapLtu fun l => { l with instant := { l.instant with phase := l.instant.phase + 1 } })

/-- R8, R9: the advance of a LOCKED station by one tick. -/
def advance (s : State) : State := if s.now.phase + 1 < s.period then s.advancePhase else s.expireCycle

/-- R18: a tick of a hold. -/
def holdTick (s : State) : State := s.mapLtu fun l => { l with hold := l.hold - 1 }

/-- R5: a wrap in LISTEN that does not bring the listen count to JOIN_WAIT. -/
def wrapInListen (s : State) : State :=
  s.mapLtu fun l => { l with instant := { l.instant with phase := 0 }, listenCount := l.listenCount + 1 }

/-- R6: the self-start. A MUTED station's slot stays EMPTY. -/
def startSelf (s : State) : State :=
  let s1 := s.mapLtu fun l => { l with
    instant := { cycle := 0#32, phase := 0 }, sync := .locked, listenCount := 0
    slot := if s.muted then l.slot else .offered }
  s1.boundary false 0#32

/-- R5: a tick of LISTEN that is not a wrap. -/
def listenAdvance (s : State) : State :=
  s.mapLtu fun l => { l with instant := { l.instant with phase := l.instant.phase + 1 } }

/-- The next tick is a wrap or an expiry: it would bring the phase to P. -/
def phaseEnds (s : State) : Bool := decide (s.period ≤ s.now.phase + 1)

/-- R6: the next wrap brings the listen count to JOIN_WAIT. -/
def joinWaitEnds (s : State) : Bool := decide (s.joinWait ≤ s.ltu.listenCount + 1)

/-- The LTU's part of a tick in RUNNING (R5, R6, R8, R9, R18). -/
def ltuTick (s : State) : State :=
  match s.ltu.sync with
  | .listen =>
    if s.phaseEnds then (if s.joinWaitEnds then s.startSelf else s.wrapInListen) else s.listenAdvance
  | .locked => if 0 < s.ltu.hold then s.holdTick else s.advance

/-- The mark that the LTU's part of this tick has been taken (assumption log 14). -/
def markTicked (s : State) : State := s.mapLtu fun l => { l with ticked := true }

/-- R14: the target instant of a beacon. -/
def beaconTarget (s : State) (cycle : Word) (phase : Half) : Instant :=
  Instant.add s.period { cycle := cycle, phase := phase.toNat } Config.beaconTicks

/-- R7: adoption in LISTEN. -/
def adoptInListen (s : State) (source : Address) (target : Instant) : State :=
  let s1 := s.mapLtu fun l => { l with
    instant := target, sync := .locked, listenCount := 0, lastSource := some source }
  s1.boundary false target.cycle

/-- R19: the common effects of an adoption in LOCKED. -/
def adoptionEffects (s : State) (source : Address) : State :=
  s.withdraw.mapLtu fun l => { l with streak := 0, adopted := true, lastSource := some source }

/-- R16: a forward adoption, its boundary event when it crosses the end of the cycle, and the catch-up (R80). -/
def adoptForward (s : State) (source : Address) (target : Instant) : State :=
  let s1 := (s.adoptionEffects source).mapLtu fun l => { l with hold := 0, instant := target }
  let s2 := if target.cycle = s.now.cycle then s1 else s1.boundary false target.cycle
  s2.timePass

/-- R17: a backward adoption by `ticks`, or an adoption in place when `ticks` is 0. -/
def adoptBackward (s : State) (source : Address) (ticks : Nat) : State :=
  (s.adoptionEffects source).mapLtu fun l => { l with hold := ticks }

/-- R20: what every stray does. -/
def strayBeacon (s : State) : State := (s.setFlag .stray).count .strays

/-- R20: a lead stray. -/
def leadStray (s : State) : State := s.strayBeacon.mapLtu fun l => { l with leadStray := true }

/-- R23: the timeline shift of a merge into `target`'s cycle, in the blocks that store instants. -/
def shiftTimeline (s : State) (ticks : Nat) (target : Instant) : State :=
  (((s.shiftTimeSchedule ticks).shiftQueue ticks).shiftRecords ticks).historyRestart target.cycle

/-- R22: a merge. -/
def mergeTo (s : State) (source : Address) (target : Instant) (ticks : Nat) : State :=
  let s1 := (((s.withdraw).setFlag .merge).count .merges).mapLtu fun l => { l with
    instant := target, hold := 0, streak := 0, leadStray := false, adopted := false, lastSource := some source }
  let s2 := s1.shiftTimeline ticks target
  if target.cycle = s.now.cycle then s2 else s2.boundary false target.cycle

/-- R15: the test of a beacon of the right period against its target instant, in LOCKED. -/
def testBeacon (s : State) (source : Address) (target : Instant) : State :=
  let d := Instant.distance s.period s.now target
  if 0 < d ∧ d ≤ s.window then s.adoptForward source target
  else if -(s.window : Int) ≤ d ∧ d ≤ 0 then s.adoptBackward source d.natAbs
  else if 0 < d then
    (if s.ltu.streak < s.strayLimit then s.leadStray else s.mergeTo source target d.natAbs)
  else s.strayBeacon

/-- R7, R15: the LTU's handling of a beacon in RUNNING. -/
def takeBeacon (s : State) (source : Address) (cycle : Word) (phase period : Half) : State :=
  if period.toNat ≠ s.period ∨ period.toNat ≤ phase.toNat then s.setFlag .periodMismatch
  else match s.ltu.sync with
    | .listen => s.adoptInListen source (s.beaconTarget cycle phase)
    | .locked => s.testBeacon source (s.beaconTarget cycle phase)

end State

/-! ### Commands

The LTU takes one of the first five in a tick, as each is its part of one (assumption log 14). -/

/-- LISTEN_WRAP (R5): the tick that would bring the phase to P in LISTEN, short of JOIN_WAIT. -/
def execListenWrap (s : State) : Host.Outcome State Fault Refusal :=
  .next (if s.listening = true ∧ s.phaseEnds = true ∧ s.joinWaitEnds = false ∧ s.ltu.ticked = false then s.markTicked.wrapInListen else s)

/-- SELF_START (R6): the wrap that brings the listen count to JOIN_WAIT. -/
def execSelfStart (s : State) : Host.Outcome State Fault Refusal :=
  .next (if s.listening = true ∧ s.phaseEnds = true ∧ s.joinWaitEnds = true ∧ s.ltu.ticked = false then s.markTicked.startSelf else s)

/-- CYCLE_EXPIRY (R9): the tick that would bring the phase of a LOCKED station to P, in no hold. -/
def execCycleExpiry (s : State) : Host.Outcome State Fault Refusal :=
  .next (if s.locked = true ∧ s.ltu.hold = 0 ∧ s.phaseEnds = true ∧ s.ltu.ticked = false then s.markTicked.expireCycle else s)

/-- HOLD_END (R18): the tick that brings the hold remainder to 0. -/
def execHoldEnd (s : State) : Host.Outcome State Fault Refusal :=
  .next (if s.locked = true ∧ s.ltu.hold = 1 ∧ s.ltu.ticked = false then s.markTicked.holdTick else s)

/-- The instant that the next advance of the line instant reaches (R8, R9). -/
def State.nextInstant (s : State) : Instant :=
  if s.now.phase + 1 < s.period then { s.now with phase := s.now.phase + 1 }
  else { cycle := s.now.cycle + 1#32, phase := 0 }

/-- R76: the head of the time schedule is due at the instant of the next advance. -/
def State.headDueNext (s : State) : Bool :=
  match s.asc.time with
  | [] => false
  | a :: _ => Instant.atOrBefore s.period a.due s.nextInstant

/-- TIME_HEAD_DUE (R76): an advance of the line instant (an expiry's included) that finds the head due; the pass fires
the due steps in schedule order. -/
def execTimeHeadDue (s : State) : Host.Outcome State Fault Refusal :=
  .next (if s.locked = true ∧ s.ltu.hold = 0 ∧ s.headDueNext = true ∧ s.ltu.ticked = false then s.markTicked.advance else s)

/-- BEACON (R7, R15, R149). -/
def execBeacon (source : Address) (cycle : Word) (phase period : Half) (s : State) :
    Host.Outcome State Fault Refusal :=
  .next (s.receiveFrame (.beacon source cycle phase period) (State.acceptFrame source (State.whenRunning fun s1 =>
    s1.takeBeacon source cycle phase period)))

end Sys2Proof.Machine
end

