-- ==== Sys2Proof/Machine/Operands.lean ====
section
/-! DEFINITION. The layout of the configuration image (R193): the records it holds, read from its 760 bytes. -/

namespace Sys2Proof.Machine

/-- R183, R193: the 760 bytes of a read: the bytes the memory drove, and 0xFF from where it stopped driving. -/
def deliveredImage (image : List Byte) : List Byte :=
  (image ++ List.replicate Config.imageBytes 0xFF#8).take Config.imageBytes

namespace Image

/-! ### Header and station record -/

/-- Offset 0. -/
def format (img : List Byte) : Half := half16At img 0

/-- Offset 2. -/
def lengthField (img : List Byte) : Half := half16At img 2

/-- Offset 4. -/
def identity (img : List Byte) : Half := half16At img 4

/-- Offset 6. -/
def checkField (img : List Byte) : Half := half16At img 6

/-- R185: the check computed over bytes 8 to 759. -/
def computedCheck (img : List Byte) : Half := crcOf (bytesBits (img.drop 8))

/-- Offsets 8 to 13: P, W, JOIN_WAIT, STRAY_LIMIT. -/
def timeParams (img : List Byte) : TimeParams :=
  { period := (half16At img 8).toNat, window := (half16At img 10).toNat,
    joinWait := (byteAt img 12).toNat, strayLimit := (byteAt img 13).toNat }

/-- Offsets 14 and 16. -/
def lateLimits (img : List Byte) : LateLimits :=
  { time := (half16At img 14).toNat, travel := (half16At img 16).toNat }

/-- Offset 18. -/
def lineTag (img : List Byte) : Half := half16At img 18

/-- Offset 20; other codes are none. -/
def travelMode (img : List Byte) : Option TravelMode :=
  match (byteAt img 20).toNat with
  | 0 => some .none
  | 1 => some .pulse
  | 2 => some .quad
  | _ => none

/-- Offset 21. -/
def faultMask (img : List Byte) : Half := half16At img 21

/-! ### Line records -/

/-- The line record of Ln stands at 24 + 8 × n. -/
def lineOffset (n : LineId) : Nat := 24 + 8 * n.val

/-- Byte 0 of a line record; other codes are none. -/
def functionCode (b : Byte) : Option LineFunction :=
  match b.toNat with
  | 0 => some .unused
  | 1 => some .sense
  | 2 => some .drive
  | 3 => some .zero
  | 4 => some .cycleOut
  | 5 => some .enc
  | _ => none

/-- The function of Ln as the image gives it. -/
def lineFunction (img : List Byte) (n : LineId) : Option LineFunction := functionCode (byteAt img (lineOffset n))

/-- Bits 2-1 of the settings byte. -/
def edgeCode (b : BitVec 2) : EdgeSelection :=
  match b.toNat with
  | 0 => .rising
  | 1 => .falling
  | 2 => .both
  | _ => .unassigned

/-- Bytes 5-6: the duration field of Ln. -/
def duration (img : List Byte) (n : LineId) : Nat := (half16At img (lineOffset n + 5)).toNat

/-- The function and settings of Ln (R118). -/
def lineSettings (img : List Byte) (n : LineId) : LineSettings :=
  let b := byteAt img (lineOffset n + 1)
  { function := (lineFunction img n).getD .unused
    polarity := if b.getLsbD 0 then .activeLow else .activeHigh
    edges := edgeCode (b.extractLsb' 1 2)
    filterWidth := (byteAt img (lineOffset n + 2)).toNat
    deadTime := (half16At img (lineOffset n + 3)).toNat
    pulseWidth := duration img n
    channel := index8 (b.extractLsb' 5 3)
    publish := b.getLsbD 3
    localRoute := b.getLsbD 4 }

/-! ### Source map, subscription records, templates -/

/-- The source map byte of a station address. -/
def mapByte (img : List Byte) (n : Fin 32) : Byte := byteAt img (88 + n.val)

/-- A source map value: a bank from 0 to 7, or NONE. -/
def mapEntry (img : List Byte) (n : Fin 32) : Option (Fin 8) :=
  if h : (mapByte img n).toNat < 8 then some ⟨(mapByte img n).toNat, h⟩ else none

/-- A number of four bits as an index of sixteen. -/
def index16 (b : BitVec 4) : Fin 16 := ⟨b.toNat, b.isLt⟩

/-- Byte 4 of a subscription record: bit 7 present, bit 6 level, bits 2-0 line. -/
def qualifierOf (b : Byte) : Option Qualifier :=
  if b.getLsbD 7 then
    some { line := index8 (b.extractLsb' 0 3), level := if b.getLsbD 6 then .active else .inactive }
  else none

/-- The subscription record of entry `e`, at 120 + 6 × e. -/
def subscription (img : List Byte) (e : Fin 64) : Entry :=
  let base := 120 + 6 * e.val
  let b := byteAt img base
  { valid := b.getLsbD 7
    domain := if b.getLsbD 6 then .travel else .time
    delay := field24At img (base + 1)
    template := index16 (b.extractLsb' 0 4)
    qualifier := qualifierOf (byteAt img (base + 4))
    shadow := none
    lastSeen := none }

/-- Bits 7-6 of a template step. -/
def opCode (b : BitVec 2) : StepOp :=
  match b.toNat with
  | 1 => .assert
  | 2 => .release
  | _ => .noOp

/-- Step `k` of template `t`, at 504 + 16 × t + 4 + 3 × k. -/
def templateStep (img : List Byte) (t : Fin 16) (k : Fin 4) : TemplateStep :=
  let base := 504 + 16 * t.val + 4 + 3 * k.val
  let b := byteAt img base
  { op := opCode (b.extractLsb' 6 2), line := index8 (b.extractLsb' 0 3), gap := half16At img (base + 1) }

/-- Template `t`, at 504 + 16 × t. -/
def template (img : List Byte) (t : Fin 16) : Template :=
  { count := (byteAt img (504 + 16 * t.val)).toNat, steps := Table.ofFn (templateStep img t) }

end Image

end Sys2Proof.Machine
end

