-- ==== Sys2Proof/Machine/Start.lean ====
section
/-! DEFINITION. The Configuration Loader (R179 to R189): the start, the image read, the image checks, the distribution, HALTED. -/

namespace Sys2Proof.Machine

/-! ### The image read (R182, R183) -/

/-- R182: the direction sent with the device address. -/
inductive LinkDirection where
  | write
  | read
  deriving DecidableEq, Repr

/-- The steps of the image read, in the terms of R182. A recovery pulse is one of the clock pulses with which the CFL
waits for CSDA to read high. -/
inductive LinkStep where
  | recoveryPulse
  | startCondition
  | deviceAddress (direction : LinkDirection)
  | offsetHigh
  | offsetLow
  | repeatedStart
  | dataByte (index : Nat)
  | stopCondition
  deriving DecidableEq, Repr

/-- What goes over the link in a step besides its conditions: an address with its direction, or a byte that the CFL
sends. -/
inductive LinkSent where
  | address (device : BitVec 7) (direction : LinkDirection)
  | byte (value : Byte)
  deriving DecidableEq, Repr

namespace LinkStep

/-- R182: the bit times of a step; that a recovery pulse takes one is an inference (assumption log 32). -/
def bitTimes : LinkStep → Nat
  | .recoveryPulse => 1
  | .startCondition => 1
  | .deviceAddress _ => 9
  | .offsetHigh => 9
  | .offsetLow => 9
  | .repeatedStart => 1
  | .dataByte _ => 9
  | .stopCondition => 1

/-- R182: what the CFL sends in a step: the device address 0x50 with its direction, or a byte of the offset 0. -/
def sent : LinkStep → Option LinkSent
  | .deviceAddress d => some (.address Config.linkDevice d)
  | .offsetHigh => some (.byte 0#8)
  | .offsetLow => some (.byte 0#8)
  | .recoveryPulse => none
  | .startCondition => none
  | .repeatedStart => none
  | .dataByte _ => none
  | .stopCondition => none

/-- R182, R183: the acknowledgement that the CFL reads from the memory in a step. -/
def readsAck : LinkStep → Option MemoryAck
  | .deviceAddress .write => some .deviceWrite
  | .offsetHigh => some .offsetHigh
  | .offsetLow => some .offsetLow
  | .deviceAddress .read => some .deviceRead
  | .recoveryPulse => none
  | .startCondition => none
  | .repeatedStart => none
  | .dataByte _ => none
  | .stopCondition => none

/-- R182: the acknowledgement bit that the CFL sends behind a data byte, true for the high of a not-acknowledge: it
acknowledges each byte except the last. -/
def sendsAck : LinkStep → Option Bool
  | .dataByte i => some (decide (i + 1 = Config.imageBytes))
  | .recoveryPulse => none
  | .startCondition => none
  | .deviceAddress _ => none
  | .offsetHigh => none
  | .offsetLow => none
  | .repeatedStart => none
  | .stopCondition => none

/-- The step brings a byte of the image. -/
def isData : LinkStep → Bool
  | .dataByte _ => true
  | .recoveryPulse => false
  | .startCondition => false
  | .deviceAddress _ => false
  | .offsetHigh => false
  | .offsetLow => false
  | .repeatedStart => false
  | .stopCondition => false

end LinkStep

/-- R182: steps 1 to 5 of the transaction. -/
def addressing : List LinkStep :=
  [.startCondition, .deviceAddress .write, .offsetHigh, .offsetLow, .repeatedStart, .deviceAddress .read]

/-- R182: steps 6 and 7. -/
def transfer : List LinkStep := (List.range Config.imageBytes).map LinkStep.dataByte ++ [.stopCondition]

/-- R183: the steps up to and including the first whose acknowledgement reads high; all of them when none does. -/
def upToRefusal (refuses : Option MemoryAck) : List LinkStep → List LinkStep
  | [] => []
  | x :: rest =>
    if x.readsAck ≠ none ∧ x.readsAck = refuses then [x] else x :: upToRefusal refuses rest

end Sys2Proof.Machine

namespace Sys2Proof.SerialMemory

open Sys2Proof.Machine

/-- R183: CSDA reads high within nine clock pulses. -/
def lineFree (m : SerialMemory) : Bool := decide (m.pulses ≤ Config.recoveryPulses)

/-- R183: the memory answers the read. -/
def answers (m : SerialMemory) : Bool := m.lineFree && m.refuses.isNone

/-- R183: the first sign that the memory does not answer is at an acknowledgement, or, with none, at the ninth clock
pulse. -/
def failsAt (m : SerialMemory) (place : Option MemoryAck) : Bool :=
  match place with
  | none => !m.lineFree
  | some a => m.lineFree && m.refuses == some a

/-- R182: the memory answers the read, and drives the bytes of `image` in it. -/
def gives (m : SerialMemory) (image : List Byte) : Bool := m.answers && m.bytes == image

/-- R182, R183: the steps of a read, in order. A read without an answer ends with a stop condition behind the first sign
of it. -/
def script (m : SerialMemory) : List LinkStep :=
  List.replicate (min m.pulses Config.recoveryPulses) .recoveryPulse ++
    (if m.lineFree then upToRefusal m.refuses addressing else []) ++ (if m.answers then transfer else [.stopCondition])

/-- R182: the local ticks of a read. -/
def readTicks (m : SerialMemory) : Nat := Config.linkTicksPerBit * (m.script.map LinkStep.bitTimes).sum

end Sys2Proof.SerialMemory

namespace Sys2Proof.Machine

/-- The steps of a run of steps that have ended at a bit time from its first. -/
def stepsEnded : List LinkStep → Nat → List LinkStep
  | [], _ => []
  | x :: rest, bit => if x.bitTimes ≤ bit then x :: stepsEnded rest (bit - x.bitTimes) else []

/-- The step of a run of steps that stands at a bit time from its first. -/
def linkStepAt : List LinkStep → Nat → Option LinkStep
  | [], _ => none
  | x :: rest, bit => if bit < x.bitTimes then some x else linkStepAt rest (bit - x.bitTimes)

/-- R180, R182: the bytes that a read has brought into the image buffer after some local ticks; a byte comes in at the
end of its step (assumption log 10). -/
def receivedBytes (m : SerialMemory) (ticks : Nat) : List Byte :=
  (deliveredImage m.bytes).take ((stepsEnded m.script (ticks / Config.linkTicksPerBit)).countP LinkStep.isData)

/-! ### The image checks (R184 to R187, R30) -/

/-- R29: the ordering conditions read from the first step: the lines asserted after the steps, or none when a step has
no op, asserts an asserted line or releases one that is not. -/
def orderRun : List TemplateStep → HeldSet → Option HeldSet
  | [], held => some held
  | x :: rest, held =>
    match x.op with
    | .assert => if held.get x.line then none else orderRun rest (held.set x.line true)
    | .release => if held.get x.line then orderRun rest (held.set x.line false) else none
    | .noOp => none

/-- The empty held set. -/
def noLines : HeldSet := Table.fill 8 false

namespace Template

/-- R28: the steps in use. -/
def stepsInUse (t : Template) : List TemplateStep := t.steps.items.take t.count

/-- R29: the conditions on step count and op and the first three conditions. -/
def orderingHolds (t : Template) : Bool :=
  decide (1 ≤ t.count ∧ t.count ≤ 4) && orderRun t.stepsInUse noLines == some noLines

/-- R29: the fourth condition, against the lines' functions. -/
def linesAreDrive (t : Template) (function : LineId → LineFunction) : Bool :=
  t.stepsInUse.all fun x => function x.line == .drive

end Template

namespace Image

/-- R186: the check of code 5 passes. -/
def parametersInRange (img : List Byte) : Bool :=
  let p := timeParams img
  decide (1000 ≤ p.period) && decide (16 ≤ p.window) && decide (p.window ≤ p.period / 4) &&
    decide (2 ≤ p.joinWait) && decide (1 ≤ p.strayLimit) && decide (p.strayLimit ≤ 15) && (travelMode img).isSome

/-- R105: the travel mode requires the function ENC on the line. -/
def encRequired (mode : TravelMode) (n : LineId) : Bool :=
  match mode with
  | .none => false
  | .pulse => n == 6
  | .quad => n == 6 || n == 7

/-- The functions of the lines, for the checks that read them. -/
def functionOf (img : List Byte) (n : LineId) : LineFunction := (lineSettings img n).function

/-- R187: a line record passes items 1 to 4 of the check of code 6. -/
def lineFits (img : List Byte) (n : LineId) : Bool :=
  let l := lineSettings img n
  (lineFunction img n).isSome &&
    (!(l.function == .sense || l.function == .zero) || l.edges != .unassigned) &&
    (!(l.function == .cycleOut) || (decide (0 < l.pulseWidth) && decide (l.pulseWidth < (timeParams img).period))) &&
    ((l.function == .enc) == encRequired ((travelMode img).getD .none) n)

/-- R187, R27: a subscription record passes items 5 and 6 of the check of code 6; one not valid is exempt. -/
def entryFits (img : List Byte) (e : Fin 64) : Bool :=
  let r := subscription img e
  !r.valid ||
    ((match r.qualifier with
      | none => true
      | some q => functionOf img q.line == .sense) &&
    (r.domain != .travel || (travelMode img).getD .none != .none))

/-- The numbers of the 64 entries. -/
def allEntries : List (Fin 64) := List.finRange 64

/-- The check of code 6 passes. -/
def linesFit (img : List Byte) : Bool := allLines.all (lineFits img) && allEntries.all (entryFits img)

/-- R187, R25: the check of code 7 passes. -/
def mapFits (img : List Byte) : Bool :=
  (List.finRange 32).all fun n => decide ((mapByte img n).toNat < 8) || mapByte img n == 0xFF#8

/-- R30: `p` holds of every template named by a valid subscription entry. -/
def namedTemplates (img : List Byte) (p : Template → Bool) : Bool :=
  allEntries.all fun e => !(subscription img e).valid || p (template img (subscription img e).template)

/-- R184: the code of the first check that fails, 0 when every check passes. -/
def haltCode (img : List Byte) : Nat :=
  if format img ≠ Config.formatCode then 2
  else if (lengthField img).toNat ≠ Config.imageBytes then 3
  else if computedCheck img ≠ checkField img then 4
  else if parametersInRange img = false then 5
  else if linesFit img = false then 6
  else if mapFits img = false then 7
  else if namedTemplates img Template.orderingHolds = false then 8
  else if namedTemplates img (fun t => t.linesAreDrive (functionOf img)) = false then 9
  else 0

end Image

/-! ### Distribution, RUNNING and HALTED (R188, R189) -/

/-- R125, R188: a line at the entry into RUNNING: its settings, and on a SENSE, ZERO or ENC line the sampled level. The
LLU's first work falls in the following tick, so this tick's parts are marked taken. -/
def lineAtEntry (settings : LineSettings) (pinHigh : Bool) (l : LocalLine) : LocalLine :=
  { l with
    settings := settings
    filtered := if settings.function.sampled then Level.ofPin settings.polarity pinHigh else .inactive
    sampled := true, deadCounted := true, pulseCounted := true, compared := true }

namespace State

/-- R188: the distribution of the image and the entry into RUNNING; bit n of `pins` is the level of pin Ln. -/
def enterRunning (s : State) (img : List Byte) (pins : BitVec 8) : State :=
  { s with
    ltu := { s.ltu with params := some (Image.timeParams img), ticked := true }
    asc := { s.asc with limits := some (Image.lateLimits img) }
    srh := { lineTag := some (Image.lineTag img) }
    tvu := { s.tvu with mode := (Image.travelMode img).getD .none }
    fru := { s.fru with mask := Image.faultMask img }
    llu := { lines := Table.ofFn fun n =>
      lineAtEntry (Image.lineSettings img n) (pins.getLsbD n.val) (s.llu.lines.get n) }
    dcu := { lines := Table.ofFn fun n => { s.dcu.lines.get n with limit := Image.duration img n } }
    sbs := { sourceMap := Table.ofFn (Image.mapEntry img), entries := Table.ofFn (Image.subscription img),
             templates := Table.ofFn (Image.template img) }
    lpi := { s.lpi with
      state := .active, faultCount := 0, acceptedRun := 0, quietCycles := 0, frameStart := false }
    cfl := { s.cfl with run := .running, buffer := [], haltCode := 0 } }

/-- R189: the entry into HALTED with a halt reason code; nothing is distributed. -/
def enterHalted (s : State) (code : Nat) : State :=
  { s with
    lpi := { s.lpi with
      state := .reportOnly, faultCount := 0, acceptedRun := 0, quietCycles := 0, frameStart := false }
    cfl := { s.cfl with run := .halted, read := .ended, buffer := [], haltCode := code } }

/-- R182, R180: the end of a read in which the memory answered: the buffer holds the image, and its identity and check
fields are kept. -/
def endRead (s : State) : State :=
  { s with cfl := { s.cfl with
    read := .ended, identity := Image.identity s.cfl.buffer, checkValue := Image.checkField s.cfl.buffer } }

/-- The local ticks of the image read under way; none when no read is. -/
def readingTicks (s : State) : Option Nat :=
  match s.cfl.run with
  | .running => none
  | .halted => none
  | .configuring =>
    match s.cfl.read with
    | .reading k => some k
    | .notBegun => none
    | .ended => none

/-- R181: the start proceeds: the straps are sampled and the image read begins. -/
def proceed (s : State) (start : StartReads) : State :=
  { s with cfl := { s.cfl with address := start.straps, read := .reading 0, memory := start.memory } }

/-- R182: the step of the image read at the present tick; none when no read is under way. -/
def linkStep (s : State) : Option LinkStep :=
  match s.readingTicks with
  | none => none
  | some k => linkStepAt s.cfl.memory.script (k / Config.linkTicksPerBit)

/-- The station drives neither CSCL nor CSDA. R181 says so of a station held in reset; that it holds in every other
state without a read under way, in RUNNING and HALTED, is the model's choice (DESIGN CHOICE, assumption log 33). -/
def linkReleased (s : State) : Bool := s.linkStep.isNone

/-- R182: the image read stands `ticks` local ticks behind its beginning, with the bytes that have come in. -/
def readTo (s : State) (ticks : Nat) : State :=
  { s with cfl := { s.cfl with read := .reading ticks, buffer := receivedBytes s.cfl.memory ticks } }

/-- R182: the ticks that are left of the image read pass, up to the event that ends it. In CONFIGURING a tick moves the
read and the place of the decoder, and nothing else (assumption log 12). -/
def readOut (s : State) (ticks : Nat) : State :=
  (s.setDecoder (s.lpi.decoder.advanceBy (s.cfl.memory.readTicks - ticks))).readTo s.cfl.memory.readTicks

end State

/-! ### Commands -/

/-- PIN_RESET (R181): every block at its pin-reset values; the commands that wait go on waiting. -/
def execPinReset (s : State) : Host.Outcome State Fault Refusal :=
  .next { State.reset with pending := s.pending }

/-- RESET_RELEASE (R181): of a station held in reset. -/
def execResetRelease (start : StartReads) (s : State) : Host.Outcome State Fault Refusal :=
  .next (if s.heldInReset then s.proceed start else s)

/-- MEMORY_NOT_ANSWERING (R183): at the stop condition behind the first sign that the memory does not answer, halt reason
code 1 (assumption log 32). -/
def execMemoryNotAnswering (place : Option MemoryAck) (s : State) : Host.Outcome State Fault Refusal :=
  .next (match s.readingTicks with
    | none => s
    | some k => if s.cfl.memory.failsAt place then (s.readOut k).enterHalted 1 else s)

/-- IMAGE_CHECKS (R184, R188, R189): at the stop condition of an answered read, against the image buffer. -/
def execImageChecks (image : List Byte) (pins : BitVec 8) (s : State) : Host.Outcome State Fault Refusal :=
  .next (match s.readingTicks with
    | none => s
    | some k =>
      if s.cfl.memory.gives image then
        let s1 := (s.readOut k).endRead
        let code := Image.haltCode s1.cfl.buffer
        if code = 0 then s1.enterRunning s1.cfl.buffer pins else s1.enterHalted code
      else s)

end Sys2Proof.Machine
end

