-- ==== Sys2Proof/Machine/Service.lean ====
section
/-! DEFINITION. The Service Request Handler (R171 to R178) and the queries of the Fault and Report Unit (R165, R166). -/

namespace Sys2Proof.Machine

/-- R172: the line tag check. -/
def tagAccepted (configured : Option Half) (carried : Half) : Bool :=
  match configured with
  | none => false
  | some t => if t = 0x0000#16 then true else if t = 0xFFFF#16 then false else t == carried

namespace State

/-- R165, R172: a target that names the station, or all stations. -/
def addressed (s : State) (target : Byte) : Bool :=
  target == s.cfl.address.setWidth 8 || target == Config.targetAll

/-- R172, R177: a refused request. -/
def refuseRequest (s : State) : State := (s.setFlag .requestRefused).count .refusedRequests

/-- R172: a CONTROL or RETIME request in RUNNING: ignored when not addressed here, refused at the tag check, or taken. -/
def takeRequest (s : State) (target : Byte) (tag : Half) (act : State → State) : State :=
  if s.addressed target then
    if tagAccepted s.srh.lineTag tag then act s else s.refuseRequest
  else s

/-- R174: all fourteen event flags are cleared. -/
def clearEvents (s : State) : State := { s with fru := { s.fru with events := EventFlags.clear } }

/-- R176: every block at its value after a RESTART, the event flags and counters kept with RESTARTED set, the decoder in
its place, and the new start proceeding with a fresh sample of the straps and a fresh read (R181). -/
def restartStation (s : State) (start : StartReads) : State :=
  State.proceed
    { State.reset with
      lpi := { Lpi.reset with decoder := s.lpi.decoder }
      fru := { Fru.reset with events := s.fru.events.raise .restarted, counters := s.fru.counters }
      pending := s.pending } start

/-- R172, R173, R176: a RESTART in RUNNING is tag-checked; in HALTED it is not. -/
def takeRestart (s : State) (target : Byte) (tag : Half) (start : StartReads) : State :=
  match s.cfl.run with
  | .running => s.takeRequest target tag fun s1 => s1.restartStation start
  | .halted => if s.addressed target then s.restartStation start else s
  | .configuring => s

/-- R35, R177: an accepted RETIME goes to the SBS, which may refuse it. -/
def retimeEntry (s : State) (entry : Byte) (delay : BitVec 24) : State :=
  match s.takeRetime entry delay with
  | some s1 => s1
  | none => s.refuseRequest

/-- R166: a handled query for page `p` taken into the report slot. -/
def takePage (s : State) (p : Fin 8) : State :=
  match s.fru.reportSlot with
  | .empty => { s with fru := { s.fru with reportSlot := .waiting p } }
  | .waiting _ => { s with fru := { s.fru with reportSlot := .waiting p } }
  | .sending _ => { s with fru := { s.fru with heldPage := some p } }

/-- R165: a query is handled when it is addressed here and its page lies from 0 to 7. -/
def takeQuery (s : State) (target page : Byte) : State :=
  if h : page.toNat < 8 then (if s.addressed target then s.takePage ⟨page.toNat, h⟩ else s) else s

/-- The station's own report is on the wire. -/
def reportOnWire (s : State) : Bool := (s.lpi.transmission.map Transmission.candidate) == some .report

end State

/-! ### Commands -/

/-- CLEAR_FAULTS (R172 to R174). -/
def execClearFaults (source : Address) (target : Byte) (tag : Half) (s : State) :
    Host.Outcome State Fault Refusal :=
  .next (s.receiveFrame (.clearFaults source target tag) (State.acceptFrame source (State.whenRunning fun s1 =>
    s1.takeRequest target tag State.clearEvents)))

/-- PURGE (R172, R173, R175). -/
def execPurge (source : Address) (target : Byte) (tag : Half) (s : State) : Host.Outcome State Fault Refusal :=
  .next (s.receiveFrame (.purge source target tag) (State.acceptFrame source (State.whenRunning fun s1 =>
    s1.takeRequest target tag State.cancelAll)))

/-- RESTART (R172, R173, R176). -/
def execRestart (source : Address) (target : Byte) (tag : Half) (start : StartReads)
    (s : State) : Host.Outcome State Fault Refusal :=
  .next (s.receiveFrame (.restart source target tag start)
    (State.acceptFrame source fun s1 => s1.takeRestart target tag start))

/-- UNKNOWN_OPERATION (R172, R173, R177): refused in RUNNING whether or not the tag passes, ignored in HALTED. -/
def execUnknownOperation (source : Address) (target : Byte) (tag : Half) (operation : Byte) (s : State) :
    Host.Outcome State Fault Refusal :=
  .next (s.receiveFrame (.unknownOperation source target tag operation)
    (State.acceptFrame source (State.whenRunning fun s1 => s1.takeRequest target tag State.refuseRequest)))

/-- RETIME (R35, R172, R177); not dispatched in HALTED (R149). -/
def execRetime (source : Address) (target : Byte) (tag : Half) (entry : Byte) (delay : BitVec 24) (s : State) :
    Host.Outcome State Fault Refusal :=
  .next (s.receiveFrame (.retime source target tag entry delay)
    (State.acceptFrame source (State.whenRunning fun s1 =>
      s1.takeRequest target tag fun s2 => s2.retimeEntry entry delay)))

/-- QUERY (R149, R165, R166), in RUNNING and HALTED. R166 gives its effect while the station's own report is on the
wire as well, where no other class is received (assumption log 7). -/
def execQuery (source : Address) (target page : Byte) (s : State) : Host.Outcome State Fault Refusal :=
  .next (if s.reportOnWire then State.acceptFrame source (fun s1 => s1.takeQuery target page) s
    else s.receiveFrame (.query source target page) (State.acceptFrame source fun s1 => s1.takeQuery target page))

end Sys2Proof.Machine
end

