-- ==== Sys2Proof/Machine/Reports.lean ====
section
/-! DEFINITION. The report pages (R168 to R170, R192): the payload that the FRU latches at a report's start bit. -/

namespace Sys2Proof.Machine

/-- A count as one byte. -/
def byteOf (n : Nat) : Byte := BitVec.ofNat 8 n

/-- A count as two bytes, most significant first. -/
def countBytes (n : Nat) : List Byte := bytes16 (BitVec.ofNat 16 n)

/-- R192: one bit for each line, bit n for Ln. -/
def lineBits (f : LineId → Bool) : Byte := byteOf (wordOfBits (allLines.map f))

/-- R192: the code of a transmit state. -/
def TransmitState.code : TransmitState → Byte
  | .silent => 0#8
  | .reportOnly => 1#8
  | .active => 2#8
  | .muted => 3#8

/-- R192: the code of a sync state. -/
def SyncState.code : SyncState → Byte
  | .listen => 0#8
  | .locked => 1#8

namespace State

/-- Page 0 (R169). -/
def page0 (s : State) : List Byte :=
  bytes32 s.now.cycle ++ countBytes s.now.phase ++
    [s.ltu.sync.code, s.lpi.state.code, (s.ltu.lastSource.map fun a => a.setWidth 8).getD 0xFF#8,
      byteOf s.ltu.streak]

/-- Page 1 (R169). -/
def page1 (s : State) : List Byte :=
  bytes16 s.fru.events.toHalf ++
    [byteOf (wordOfBits [s.notLocked, s.muted]), byteOf s.faultLine.toNat] ++
    bytes16 s.fru.mask ++ [0#8, 0#8, 0#8, 0#8]

/-- Pages 2 and 3 (R169): five counters, two bytes each. -/
def counterPage (s : State) (names : List CounterName) : List Byte :=
  names.flatMap fun c => countBytes (s.fru.counters.value c)

/-- Page 4 (R169). -/
def page4 (s : State) : List Byte :=
  s.counterPage [.rxRejects, .acceptedFrames] ++ bytes32 s.tvu.position ++ [0#8, 0#8]

/-- R66, R170: the due point of the head of the time schedule, or none. -/
def headDueBytes (s : State) : List Byte :=
  match s.asc.time with
  | [] => [0xFF#8, 0xFF#8, 0xFF#8, 0xFF#8]
  | a :: _ => bytes16 (a.due.cycle.setWidth 16) ++ countBytes a.due.phase

/-- R66, R170: the slot at the top of the free stack, or none. -/
def topFreeByte (s : State) : Byte :=
  match s.asc.free with
  | [] => 0xFF#8
  | slot :: _ => byteOf slot.val

/-- Page 5 (R66, R170). -/
def page5 (s : State) : List Byte :=
  [byteOf s.asc.time.length, byteOf s.asc.travel.length, byteOf s.asc.free.length, s.topFreeByte,
    byteOf s.mku.queue.length] ++ s.headDueBytes ++ [0#8]

/-- R98, R170: the claim count of a line, 0 when it is not DRIVE. -/
def shownClaim (s : State) (n : LineId) : Byte :=
  if s.functionOf n = .drive then byteOf (s.drive n).claim else 0#8

/-- R131, R170: whether a line is shown ACTIVE: driven, and presented ACTIVE. -/
def shownActive (s : State) (n : LineId) : Bool := (s.functionOf n).driven && (s.line n).presented == some .active

/-- R133, R170: whether a line's mismatch indicator is shown set. -/
def shownMismatch (s : State) (n : LineId) : Bool := s.functionOf n == .drive && (s.line n).mismatch

/-- Page 6 (R98, R170). -/
def page6 (s : State) : List Byte :=
  allLines.map s.shownClaim ++ [lineBits s.shownActive, lineBits s.shownMismatch]

/-- Page 7 (R170). -/
def page7 (s : State) : List Byte :=
  bytes16 s.cfl.identity ++ bytes16 s.cfl.checkValue ++
    [byteOf s.cfl.haltCode, s.cfl.address.setWidth 8, 0#8, 0#8, 0#8, 0#8]

/-- R192: the ten page bytes of a page. -/
def pageBytes (s : State) (p : Fin 8) : List Byte :=
  match p with
  | 0 => s.page0
  | 1 => s.page1
  | 2 => s.counterPage [.strays, .merges, .lateFires, .missed, .lostMarks]
  | 3 => s.counterPage [.duplicates, .poolRefusals, .markOutDrops, .txFaults, .refusedRequests]
  | 4 => s.page4
  | 5 => s.page5
  | 6 => s.page6
  | 7 => s.page7

/-- R168, R192: the summary byte: bit 7 HALTED, bit 6 LOCKED. -/
def summaryByte (s : State) : Byte :=
  (if s.cfl.run = .halted then 0x80#8 else 0#8) ||| (if s.ltu.sync = .locked then 0x40#8 else 0#8)

/-- R168, R192: the payload of a report of page `p`. -/
def reportPayload (s : State) (p : Fin 8) : List Byte :=
  BitVec.ofNat 8 p.val :: s.summaryByte :: s.pageBytes p

end State

end Sys2Proof.Machine
end

