-- ==== Sys2Proof/Machine/Transmit.lean ====
section
/-! DEFINITION. The sending side of the Line Pair Interface (R141 to R146): attempts, their ends, and the level of LTX. -/

namespace Sys2Proof.Machine

/-- R190: the bit of the frame that is on the wire; true is recessive. -/
def Transmission.sent (t : Transmission) : Bool := t.frame.bits.getD t.bit true

/-- R143: the bit on the wire is one of the arbitration field. -/
def Transmission.arbitrates (t : Transmission) : Bool := decide (t.bit < Config.arbitrationBits)

namespace State

/-- R141: the first offered candidate in the present transmit state. -/
def candidate (s : State) : Option Candidate :=
  let report : Option Candidate :=
    match s.fru.reportSlot with
    | .waiting _ => some .report
    | .empty => none
    | .sending _ => none
  match s.lpi.state with
  | .silent => none
  | .muted => none
  | .reportOnly => report
  | .active =>
    if s.ltu.slot = .offered then some .beacon
    else if s.mku.queue ≠ [] then some .mark
    else report

/-- R137: the line is idle. -/
def lineIdle (s : State) : Bool :=
  match s.lpi.decoder with
  | .outside run => decide (Config.gapBits ≤ run)
  | .unsynchronised _ _ => false
  | .inside _ _ => false
  | .endSlot _ => false

/-- R12, R191: the beacon of the present instant. -/
def beaconFrame (s : State) : WireFrame :=
  frameOf 0#3 s.cfl.address
    (beaconPayload s.now.cycle (BitVec.ofNat 16 s.now.phase) (BitVec.ofNat 16 s.period))

/-- R49, R191: the MARK frame of a queued capture. -/
def markFrame (s : State) (q : QueuedMark) : WireFrame :=
  frameOf 2#3 s.cfl.address
    (markPayload (markChannelByte q.channel) q.sequence (q.instant.cycle.setWidth 16) (BitVec.ofNat 16 q.instant.phase))

/-- R168, R192: the REPORT frame of a page, latched from the present state. -/
def reportFrame (s : State) (p : Fin 8) : WireFrame := frameOf 5#3 s.cfl.address (s.reportPayload p)

/-- R142: an attempt begins: the frame is on the wire at its start bit. -/
def sendFrame (s : State) (c : Candidate) (f : WireFrame) : State :=
  { s with lpi := { s.lpi with
    transmission := some { candidate := c, frame := f, bit := 0 }, decoder := .inside 0 true } }

/-- R142: an attempt with the first candidate in order; its owner is told. -/
def beginAttempt (s : State) : State :=
  match s.candidate with
  | none => s
  | some .beacon => (s.sendFrame .beacon s.beaconFrame).mapLtu fun l => { l with slot := .sending }
  | some .mark =>
    match s.mku.queue with
    | [] => s
    | q :: _ => s.sendFrame .mark (s.markFrame q)
  | some .report =>
    match s.fru.reportSlot with
    | .waiting p =>
      let s1 := s.sendFrame .report (s.reportFrame p)
      { s1 with fru := { s1.fru with reportSlot := .sending p } }
    | .empty => s
    | .sending _ => s

/-- R141, R150: a choice of a candidate falls in this tick, and has not been made in it (assumption log 14). -/
def mayBegin (s : State) : Bool :=
  s.lpi.transmission.isNone && s.lineIdle && s.lpi.state != .silent && !s.lpi.chosen

/-- R141, R155: the choice of a candidate in this tick, and the attempt with it; a tick whose choice finds none begins no
attempt. -/
def chooseCandidate (s : State) : State := State.beginAttempt { s with lpi := { s.lpi with chosen := true } }

/-- R167: a report that failed waits again, with the held page when there is one. -/
def returnReport (s : State) : State :=
  match s.fru.reportSlot with
  | .sending q => { s with fru := { s.fru with reportSlot := .waiting (s.fru.heldPage.getD q), heldPage := none } }
  | .empty => s
  | .waiting _ => s

/-- R167: a report that the line accepted gives way to the held page. -/
def reportAccepted (s : State) : State :=
  match s.fru.heldPage with
  | none => { s with fru := { s.fru with reportSlot := .empty } }
  | some p => { s with fru := { s.fru with reportSlot := .waiting p, heldPage := none } }

/-- R143, R144: the candidate returns to its owner as offered. -/
def returnCandidate (s : State) (c : Candidate) : State :=
  match c with
  | .beacon => s.mapLtu fun l => { l with slot := .offered }
  | .mark => s
  | .report => s.returnReport

/-- R145: the owner of an accepted frame clears its candidate. -/
def clearCandidate (s : State) (c : Candidate) : State :=
  match c with
  | .beacon => s.mapLtu fun l => { l with slot := .empty }
  | .mark => { s with mku := { s.mku with queue := s.mku.queue.drop 1 } }
  | .report => s.reportAccepted

/-- The attempt is over. -/
def endAttempt (s : State) : State := { s with lpi := { s.lpi with transmission := none } }

/-- R146, R152: the fault counted; the eighth in ACTIVE puts the LPI into MUTED. -/
def countTransmitFault (s : State) : State :=
  let n := min Config.muteFaults (s.lpi.faultCount + 1)
  if s.lpi.state = .active ∧ Config.muteFaults ≤ n then
    { s with lpi := { s.lpi with
      state := .muted, faultCount := n, acceptedRun := 0, quietCycles := 0, frameStart := false } }
  else { s with lpi := { s.lpi with faultCount := n } }

/-- R137, R190: the bit of a frame that is its acceptance bit, the first of its end slot. -/
def acceptanceBit (f : WireFrame) : Nat := f.ticks - 2

/-- R143, R144: where a faulted attempt leaves the decoder: after a fault at the acceptance bit two ticks before the
close of the end slot (assumption log 24), after an earlier one within the frame that it reads as before. -/
def decoderAfterFault (s : State) (t : Transmission) : Decoder :=
  if t.bit = acceptanceBit t.frame then .endSlot 2 else s.lpi.decoder

/-- R145: the line acceptance of the station's own frame. -/
def acceptOwnFrame (s : State) (c : Candidate) : State :=
  let s1 := s.endAttempt.closeFrame
  State.clearCandidate { s1 with lpi := { s1.lpi with faultCount := 0 } } c

/-- R137, R147: the station drives its reject mark: it stands at the acceptance bit of a malformed frame that it
checks. `f` is the frame that the decoder is within, as read from the line (assumption log 20). -/
def drivesRejectMark (s : State) (f : WireFrame) : Bool :=
  match s.lpi.decoder with
  | .inside bit heeded => heeded && s.lpi.state != .silent && f.malformed && bit == acceptanceBit f
  | .unsynchronised _ _ => false
  | .outside _ => false
  | .endSlot _ => false

/-- R136, R147, R190: the level that the station drives on LTX: the bit of its own frame, else dominant for its reject
mark, else recessive; true is recessive. `received` is the frame of another party that the station reads from the line
at this tick, if any (assumption log 20). -/
def ltx (s : State) (received : Option WireFrame) : Bool :=
  match s.lpi.transmission with
  | some t => t.sent
  | none =>
    match received with
    | none => true
    | some f => !s.drivesRejectMark f

end State

/-! ### Commands -/

/-- TRANSMIT_START (R141, R142, R155): the choice of this tick; one that finds no candidate offered leaves an offer of the
same tick to the next. -/
def execTransmitStart (s : State) : Host.Outcome State Fault Refusal :=
  .next (if s.mayBegin then s.chooseCandidate else s)

/-- ARBITRATION_LOST (R143): at a recessive bit of the arbitration field. The station receives the frame that beat it,
which it has read from its start bit. -/
def execArbitrationLost (s : State) : Host.Outcome State Fault Refusal :=
  .next (match s.lpi.transmission with
    | none => s
    | some t =>
      if t.arbitrates && t.sent then s.endAttempt.returnCandidate t.candidate else s)

/-- TRANSMIT_FAULT (R143, R144, R146): at a bit up to and including the acceptance bit, and at the one that the command
names; within the arbitration field, where a recessive bit read dominant is a loss, at a dominant bit. -/
def execTransmitFault (atAcceptance : Bool) (s : State) : Host.Outcome State Fault Refusal :=
  .next (match s.lpi.transmission with
    | none => s
    | some t =>
      if (t.arbitrates && t.sent) = false ∧ t.bit ≤ State.acceptanceBit t.frame ∧
          atAcceptance = decide (t.bit = State.acceptanceBit t.frame) then
        let s1 := (s.endAttempt.setDecoder (s.decoderAfterFault t)).returnCandidate t.candidate
        ((s1.setFlag .txFault).count .txFaults).countTransmitFault
      else s)

/-- OWN_FRAME_ACCEPTED (R137, R145): at the close of the end slot, a frame length after the start bit. -/
def execOwnFrameAccepted (s : State) : Host.Outcome State Fault Refusal :=
  .next (match s.lpi.transmission with
    | none => s
    | some t => if t.frame.ticks ≤ t.bit then s.acceptOwnFrame t.candidate else s)

end Sys2Proof.Machine
end

