-- ==== Sys2Proof/Machine/Tick.lean ====
section
/-! DEFINITION. One tick of the station's own time base (00_scope.md): what the step does when no command waits (assumption log 1). -/

namespace Sys2Proof.Machine

namespace State

/-- The LPI's part of a tick: a frame of the station's own that reaches its end undisturbed is accepted (R145), and an
idle line with a candidate begins an attempt (R141), unless a command has made the choice of this tick (R155). Each is
what its command does, with its mark. -/
def lpiTick (s : State) : State :=
  match s.lpi.transmission with
  | some t => if t.frame.ticks ≤ t.bit then s.acceptOwnFrame t.candidate else s
  | none => if s.mayBegin then s.chooseCandidate else s

/-- R96, R97: a local tick of line `n`'s on-time countdown; one that runs out expires as by its command. -/
def countdownTick (s : State) (n : LineId) : State :=
  if (s.drive n).counted then s
  else match (s.drive n).countdown with
    | none => s
    | some r => if r ≤ 1 then s.expireOnTime n else s.mapDrive n fun d => { d with countdown := some (r - 1) }

/-- R127: a local tick of every dead time. -/
def deadTimeTick (l : LocalLine) : LocalLine := if l.deadCounted then l else { l with deadTime := l.deadTime - 1 }

/-- R131: a local tick of every pulse. -/
def pulseTick (l : LocalLine) : LocalLine := if l.pulseCounted then l else { l with pulse := l.pulse - 1 }

/-- R121, R122: line `n`'s sample of this tick, unless a command has given it. -/
def sampleTick (s : State) (n : LineId) : State := if (s.line n).sampled then s else s.sampleLine n

/-- R132: line `n`'s comparison of this tick, unless a command has given it. -/
def compareTick (s : State) (n : LineId) : State := if (s.line n).compared then s else s.compareLine n

/-- The parts of a tick of a RUNNING station behind the LTU's that no command has taken, in the model's order
(assumption log 2). -/
def runningParts (s : State) : State :=
  let s1 := allLines.foldl State.countdownTick s.lpiTick
  let s2 := allLines.foldl State.sampleTick (s1.mapLines deadTimeTick)
  allLines.foldl State.compareTick (s2.mapLines pulseTick)

/-- R129: the refresh of every driven line, which presents the demand that stands after the tick before. -/
def refreshLines (s : State) : State :=
  { s with llu := { s.llu with lines := Table.ofFn fun n => (s.line n).refresh (s.drive n).demand } }

/-- The model's marks cleared for a new tick (assumption log 14). -/
def clearMarks (s : State) : State :=
  { s with
    ltu := { s.ltu with ticked := false }
    dcu := { s.dcu with lines := s.dcu.lines.map fun d => { d with counted := false } }
    llu := { s.llu with lines := s.llu.lines.map fun l =>
      { l with sampled := false, deadCounted := false, pulseCounted := false, compared := false } } }

/-- The next bit time on the line pair, in which the choice of a candidate is open again (assumption log 14). -/
def advanceBit (s : State) : State :=
  { s with lpi := { s.lpi with
    transmission := s.lpi.transmission.map fun t => { t with bit := t.bit + 1 }
    decoder := s.lpi.decoder.advance
    chosen := false } }

/-- R182: a local tick of the image read, which waits at its end for the command that ends it. -/
def readTick (s : State) : State :=
  match s.readingTicks with
  | none => s
  | some k => s.readTo (min s.cfl.memory.readTicks (k + 1))

/-- The step of the time base when no command waits (assumption log 1). A tick of a RUNNING station is two of them: the
LTU's part, unless a command has taken it, and then the other parts that no command has taken and the opening of the
next tick. A command between the two comes behind the LTU's part of its tick. -/
def tick (s : State) : State :=
  match s.cfl.run with
  | .configuring => if s.heldInReset then s else s.readTick.advanceBit
  | .halted => s.lpiTick.advanceBit
  | .running =>
    if s.ltu.ticked then s.runningParts.refreshLines.clearMarks.advanceBit else s.markTicked.ltuTick

end State

end Sys2Proof.Machine
end

