-- ==== Sys2Proof/Machine/Dispatch.lean ====
section
/-! DEFINITION. One arm for each command of the table: the command's meaning, called by name. -/

namespace Sys2Proof.Machine

def exec (i : Instr) (s : State) : Host.Outcome State Fault Refusal :=
  match i with
  | .pinReset => Sys2Proof.Machine.execPinReset s
  | .resetRelease start => Sys2Proof.Machine.execResetRelease start s
  | .memoryNotAnswering place => Sys2Proof.Machine.execMemoryNotAnswering place s
  | .imageChecks image pins => Sys2Proof.Machine.execImageChecks image pins s
  | .listenWrap => Sys2Proof.Machine.execListenWrap s
  | .selfStart => Sys2Proof.Machine.execSelfStart s
  | .cycleExpiry => Sys2Proof.Machine.execCycleExpiry s
  | .holdEnd => Sys2Proof.Machine.execHoldEnd s
  | .timeHeadDue => Sys2Proof.Machine.execTimeHeadDue s
  | .onTimeExpiry line => Sys2Proof.Machine.execOnTimeExpiry line s
  | .firstSight line => Sys2Proof.Machine.execFirstSight line s
  | .filterReversion line => Sys2Proof.Machine.execFilterReversion line s
  | .edgeAccept line => Sys2Proof.Machine.execEdgeAccept line s
  | .deadTimeExpiry line => Sys2Proof.Machine.execDeadTimeExpiry line s
  | .pulseEnd line => Sys2Proof.Machine.execPulseEnd line s
  | .mismatchDetected line => Sys2Proof.Machine.execMismatchDetected line s
  | .transmitStart => Sys2Proof.Machine.execTransmitStart s
  | .arbitrationLost => Sys2Proof.Machine.execArbitrationLost s
  | .transmitFault atAcceptance => Sys2Proof.Machine.execTransmitFault atAcceptance s
  | .ownFrameAccepted => Sys2Proof.Machine.execOwnFrameAccepted s
  | .frameRejected frame => Sys2Proof.Machine.execFrameRejected frame s
  | .beacon source cycle phase period => Sys2Proof.Machine.execBeacon source cycle phase period s
  | .mark source channel sequence cycleLow phase => Sys2Proof.Machine.execMark source channel sequence cycleLow phase s
  | .clearFaults source target tag => Sys2Proof.Machine.execClearFaults source target tag s
  | .purge source target tag => Sys2Proof.Machine.execPurge source target tag s
  | .restart source target tag start => Sys2Proof.Machine.execRestart source target tag start s
  | .unknownOperation source target tag operation => Sys2Proof.Machine.execUnknownOperation source target tag operation s
  | .retime source target tag entry delay => Sys2Proof.Machine.execRetime source target tag entry delay s
  | .query source target page => Sys2Proof.Machine.execQuery source target page s
  | .report source content => Sys2Proof.Machine.execReport source content s
  | .receiveDecoderOutsideFrame => Sys2Proof.Machine.execReceiveDecoderOutsideFrame s
  | .startBitRead => Sys2Proof.Machine.execStartBitRead s
  | .readBackAgreement line => Sys2Proof.Machine.execReadBackAgreement line s

end Sys2Proof.Machine
end

