-- ==== Sys2Proof/Safety.lean ====
section
/-! DEFINITION. What counts as a sound state of the station: the invariants that the manual states of its blocks, in the terms the statements use. -/

namespace Sys2Proof.Machine

/-! ### Actions and claims -/

/-- How many actions of a schedule hold line `n`. -/
def holders {δ : Type} (n : LineId) (l : List (Action δ)) : Nat := (l.filter fun a => a.held.get n).length

/-- R62: every slot is in exactly one of the free stack, the time schedule and the travel schedule. -/
def State.SlotsPartitioned (s : State) : Prop :=
  (s.asc.free ++ (s.asc.time.map Action.slot ++ s.asc.travel.map Action.slot)).Perm (List.finRange 48)

/-- R29: the lines that a template has asserted and not released before step `k`. -/
def Template.heldBefore (t : Template) (k : Nat) : Option HeldSet := orderRun (t.steps.items.take k) noLines

/-- R64: an action's template is well formed in its ordering, its next step is in use, and its held set is the one its
steps fired so far give. -/
def Action.Fits {δ : Type} (templates : Table Template 16) (a : Action δ) : Prop :=
  (templates.get a.template).orderingHolds = true ∧ a.next.val < (templates.get a.template).count ∧
    (templates.get a.template).heldBefore a.next.val = some a.held

/-- R30: behind every valid subscription entry stands a template that meets the ordering conditions. -/
def Sbs.TemplatesFit (b : Sbs) : Prop :=
  ∀ e : Fin 64, (b.entries.get e).valid = true →
    (b.templates.get (b.entries.get e).template).orderingHolds = true

/-- R92: for every line, the claim count equals the number of pending actions whose held set contains it. -/
def State.ClaimsMatch (s : State) : Prop :=
  ∀ n : LineId, (s.drive n).claim = holders n s.asc.time + holders n s.asc.travel

/-- R29, R30, R64, R92 together: the sound state of actions and claims. -/
def State.ClaimsSound (s : State) : Prop :=
  s.sbs.TemplatesFit ∧ (∀ a ∈ s.asc.time, a.Fits s.sbs.templates) ∧ (∀ a ∈ s.asc.travel, a.Fits s.sbs.templates) ∧
    s.ClaimsMatch

/-! ### Counters -/

/-- R163: no counter passes 65,535. -/
def Counters.Bounded (c : Counters) : Prop := ∀ name : CounterName, c.value name ≤ Config.counterMax

/-! ### Run states, line time and the beacon slot -/

/-- R179, R150: the transmit state that each run state allows. -/
def State.TransmitFitsRun (s : State) : Prop :=
  match s.cfl.run with
  | .configuring => s.lpi.state = .silent
  | .halted => s.lpi.state = .reportOnly
  | .running => s.lpi.state = .active ∨ s.lpi.state = .muted

/-- R2, R186: the parameters of a RUNNING station are in range. -/
def State.ParametersFit (s : State) : Prop :=
  s.cfl.run = .running → ∃ p, s.ltu.params = some p ∧ 1000 ≤ p.period ∧ p.period ≤ 65535 ∧
    16 ≤ p.window ∧ p.window ≤ p.period / 4 ∧ 1 ≤ p.strayLimit ∧ p.strayLimit ≤ 15

/-- R3: outside RUNNING the LTU does not run and keeps its reset values. -/
def State.LtuIdle (s : State) : Prop := s.cfl.run ≠ .running → s.ltu = Ltu.reset

/-- R21: the streak never exceeds STRAY_LIMIT, and a cycle with a lead stray has not reached it. -/
def State.StreakFits (s : State) : Prop :=
  s.cfl.run = .running →
    s.ltu.streak ≤ s.strayLimit ∧ (s.ltu.leadStray = true → s.ltu.streak < s.strayLimit)

/-- R1: the phase of a RUNNING station lies from 0 to P-1. -/
def State.PhaseFits (s : State) : Prop := s.cfl.run = .running → s.now.phase < s.period

/-- R3, R18: the hold remainder is at most W, and the beacon slot is EMPTY throughout a hold; in LISTEN there is
neither a hold nor a beacon (R4, R5). -/
def State.HoldFits (s : State) : Prop :=
  s.ltu.hold ≤ s.window ∧ (0 < s.ltu.hold → s.ltu.slot = .empty) ∧
    (s.ltu.sync = .listen → s.ltu.hold = 0 ∧ s.ltu.slot = .empty)

/-- R11, R140: the beacon slot is SENDING exactly while the station's beacon is on the wire. -/
def State.SlotFitsWire (s : State) : Prop :=
  s.ltu.slot = .sending ↔ (s.lpi.transmission.map Transmission.candidate) = some .beacon

/-- The sound state of the station's line time. -/
def State.TimeSound (s : State) : Prop :=
  s.TransmitFitsRun ∧ s.ParametersFit ∧ s.LtuIdle ∧ s.PhaseFits ∧ s.StreakFits ∧ s.HoldFits ∧ s.SlotFitsWire

/-! ### Outside LOCKED -/

/-- R65, R123: outside LOCKED both schedules are empty and every claim count is zero, and no filter record holds an
instant. -/
def State.QuietOutsideLocked (s : State) : Prop :=
  s.locked = false →
    s.asc.time = [] ∧ s.asc.travel = [] ∧ (∀ n, (s.drive n).claim = 0) ∧
      ∀ n r st, (s.line n).record = some r → r.stamp = some st → st.instant = none

/-- R91, R96: the on-time countdown of a line that no action claims is stopped. -/
def State.UnclaimedStopped (s : State) : Prop := ∀ n, (s.drive n).claim = 0 → (s.drive n).countdown = none

/-- The sound state of actions, claims and what LOCKED alone allows. -/
def State.ActionsSound (s : State) : Prop := s.ClaimsSound ∧ s.UnclaimedStopped ∧ s.QuietOutsideLocked

/-! ### The lines that actions drive -/

/-- R29, R30: the line condition behind every valid subscription entry and every action: each step in use of its template
names a DRIVE line. -/
def State.DriveLinesOnly (s : State) : Prop :=
  (∀ e, (s.entry e).valid = true → (s.sbs.templates.get (s.entry e).template).linesAreDrive s.functionOf = true) ∧
    (∀ a ∈ s.asc.time, (s.sbs.templates.get a.template).linesAreDrive s.functionOf = true) ∧
    ∀ a ∈ s.asc.travel, (s.sbs.templates.get a.template).linesAreDrive s.functionOf = true

/-! ### Passes of the time schedule -/

/-- R74, R76: `t` has from `s` what a pass of the time schedule at the instant `i` makes of that schedule, of the free stack
and of the claims; the travel schedule stays. -/
def State.PassTaken (s t : State) (i : Instant) : Prop :=
  let p := s.timePool.pass (timeRules s.period i) s.sbs.templates
  t.asc = { s.asc with time := p.schedule, free := p.free } ∧ t.dcu = p.dcu

/-- R69, R75, R76: `t` has from `s` what a pass of the travel schedule at a position makes of the travel schedule
`schedule`, of the free stack and of the claims, and that position; the time schedule and the history stay. -/
def State.TravelPassTaken (s t : State) (schedule : List (Action Word)) (position : Word) : Prop :=
  let p := Pool.pass (travelRules position) s.sbs.templates { s.travelPool with schedule := schedule }
  t.asc = { s.asc with travel := p.schedule, free := p.free } ∧ t.dcu = p.dcu ∧
    t.tvu = { s.tvu with position := position }

/-- R69, R75, R109: `t` has from `s` what a count change makes: the position one higher or lower and the pass there, of a
backward change with a tail whose distance ahead has become -2^31 moved to the head before it. -/
def State.CountTaken (s t : State) (d : CountChange) : Prop :=
  match d with
  | .forward => s.TravelPassTaken t s.asc.travel (s.tvu.position + 1#32)
  | .backward =>
    let p := s.tvu.position - 1#32
    (s.asc.travel = [] → s.TravelPassTaken t [] p) ∧
      ∀ front a, s.asc.travel = front ++ [a] →
        (signedDifference a.due p = -2147483648 → s.TravelPassTaken t (a :: front) p) ∧
        (signedDifference a.due p ≠ -2147483648 → s.TravelPassTaken t s.asc.travel p)

/-! ### What marks and edges meet -/

/-- R25, R26, R31: a mark of `source` on `channel` names the valid entry `i`: the source is mapped to a bank, and the entry
is number bank × 8 + channel. -/
def State.Names (s : State) (source : Address) (channel : Nat) (i : Fin 64) : Prop :=
  ∃ bank : Fin 8, s.sbs.sourceMap.get ⟨source.toNat, source.isLt⟩ = some bank ∧
    i.val = bank.val * 8 + channel ∧ (s.entry i).valid = true

/-- R33: an absent qualifier holds, and a present one when its line's filtered level is its level. -/
def State.QualifierHolds (s : State) (q : Option Qualifier) : Prop :=
  ∀ x, q = some x → (s.line x.line).filtered = x.level

/-- R120: an accepted edge to `level` is of a selected kind: to ACTIVE with RISING or BOTH, to INACTIVE with FALLING or
BOTH. -/
def EdgeSelection.Picks (e : EdgeSelection) (level : Level) : Prop :=
  (level = .active ∧ (e = .rising ∨ e = .both)) ∨ (level = .inactive ∧ (e = .falling ∨ e = .both))

/-! ### The order of the schedules -/

/-- R68: the ticks from the present instant to the due point of a TIME action. -/
def State.timeAhead (s : State) (a : Action Instant) : Int := Instant.distance s.period s.now a.due

/-- R69: the distance of the due point of a TRAVEL action ahead of the travel position. -/
def State.travelAhead (s : State) (a : Action Word) : Int := signedDifference a.due s.tvu.position

/-- R67, R68: the time schedule stands in the order of its due points, none of them past and none so far ahead (2^30
cycles) that the distance of two of them could wrap. -/
def State.TimeInOrder (s : State) : Prop :=
  s.asc.time.Pairwise (fun a b => s.timeAhead a ≤ s.timeAhead b) ∧
    ∀ a ∈ s.asc.time, a.due.phase < s.period ∧ 0 ≤ s.timeAhead a ∧ s.timeAhead a < 1073741824 * (s.period : Int)

/-- R67, R69: the travel schedule stands in the order of its distances ahead, none of them past. -/
def State.TravelInOrder (s : State) : Prop :=
  s.asc.travel.Pairwise (fun a b => s.travelAhead a ≤ s.travelAhead b) ∧ ∀ a ∈ s.asc.travel, 0 ≤ s.travelAhead a

/-- R69: at most one action, the tail, stands within two counts of the wrap of the distance ahead. -/
def State.OneNearWrap (s : State) : Prop := ∀ a ∈ s.asc.travel.dropLast, s.travelAhead a < 2147483646

/-- The instants and the positions from which a request can be formed lie near the present ones: those of the filter
records within 2^29 cycles, and theirs and the travel history's within 2^29 counts. -/
def State.NearPresent (s : State) : Prop :=
  (∀ n r st, (s.line n).record = some r → r.stamp = some st →
    (∀ i, st.instant = some i → i.phase < s.period ∧ -536870912 < (i.cycle - s.now.cycle).toInt ∧
      (i.cycle - s.now.cycle).toInt < 536870912) ∧
    -536870912 < signedDifference st.position s.tvu.position ∧
      signedDifference st.position s.tvu.position < 536870912) ∧
  ∀ e ∈ s.tvu.history, -536870912 < signedDifference e.position s.tvu.position ∧
    signedDifference e.position s.tvu.position < 536870912

/-! ### The travel history -/

/-- R110: each cycle number is one greater, modulo 2^32, than the one before it, oldest first. -/
def ConsecutiveCycles : List HistoryEntry → Prop
  | [] => True
  | [_] => True
  | a :: b :: rest => b.cycle = a.cycle + 1#32 ∧ ConsecutiveCycles (b :: rest)

/-- R104, R110: at most 16 entries, of consecutive cycles; in LOCKED the newest names the current cycle, and outside
LOCKED the history is empty. -/
def State.HistorySound (s : State) : Prop :=
  s.tvu.history.length ≤ Config.historyPlaces ∧ ConsecutiveCycles s.tvu.history ∧
    (s.locked = true → s.tvu.history.getLast?.map HistoryEntry.cycle = some s.now.cycle) ∧
    (s.locked = false → s.tvu.history = [])

/-! ### The cycle-boundary event -/

/-- R10, R37, R110, R131: `t` has from `s` what the cycle-boundary event for cycle `c` does in the Subscription Store,
the Travel Unit and the Local Line Unit: the shadow load, the history's append and the cycle pulses, and nothing else. -/
def State.BoundaryTaken (s t : State) (c : Word) : Prop :=
  (∀ e, t.entry e = { s.entry e with delay := (s.entry e).shadow.getD (s.entry e).delay, shadow := none }) ∧
    t.sbs.sourceMap = s.sbs.sourceMap ∧ t.sbs.templates = s.sbs.templates ∧
    t.tvu.mode = s.tvu.mode ∧ t.tvu.position = s.tvu.position ∧
    (s.tvu.history.getLast?.map HistoryEntry.cycle = some c → t.tvu.history = s.tvu.history) ∧
    (s.tvu.history.getLast?.map HistoryEntry.cycle ≠ some c → t.tvu.history =
      (if Config.historyPlaces ≤ s.tvu.history.length then s.tvu.history.drop 1 else s.tvu.history) ++
        [{ cycle := c, position := s.tvu.position }]) ∧
    (∀ n, t.line n = if s.functionOf n = .cycleOut then
        { s.line n with pulse := (s.line n).settings.pulseWidth, pulseCounted := true }
      else s.line n)

/-- R153: `l'` has from `l` what the cycle-boundary event does in the Line Pair Interface: nothing outside MUTED; in MUTED
a cycle with a frame start begins the quiet cycles anew, and one without adds to them, the fourth ending the mute. -/
def Lpi.QuietStepTaken (l l' : Lpi) : Prop :=
  (l.state ≠ .muted → l' = l) ∧
    (l.state = .muted → l.frameStart = true → l' = { l with quietCycles := 0, frameStart := false }) ∧
    (l.state = .muted → l.frameStart = false → l.quietCycles + 1 < 4 →
      l' = { l with quietCycles := l.quietCycles + 1 }) ∧
    (l.state = .muted → l.frameStart = false → 4 ≤ l.quietCycles + 1 →
      l' = { l with state := .active, faultCount := 0, acceptedRun := 0, quietCycles := 0, frameStart := false })

/-! ### The mark-out queue -/

/-- R47: at most 16 captures. -/
def State.QueueBounded (s : State) : Prop := s.mku.queue.length ≤ Config.markOutPlaces

/-! ### Frames received -/

/-- The station heeds the frame of another party that the command `i` stands for: it is not held in reset, not sending
and not SILENT, and its decoder stands at the close of that frame, whose start bit it heeded, or outside a frame, or in
the end slot of its own rejected frame (R137, R138, R150; assumption log 6). -/
def State.Heeds (s : State) (i : Instr) : Prop :=
  s.readsNoFrame = false ∧ s.lpi.state ≠ .silent ∧
    ((∃ bit, s.lpi.decoder = .inside bit true ∧ State.closesNow i bit = true) ∨
      (∃ run, s.lpi.decoder = .outside run) ∨ (∃ left, s.lpi.decoder = .endSlot left))

/-- The state at the close of a frame that the station heeded (R137). -/
def State.closed (s : State) : State :=
  match s.lpi.decoder with
  | .outside _ => s.meetFrame.closeFrame
  | .endSlot _ => s.meetFrame.closeFrame
  | .inside _ _ => s.closeFrame
  | .unsynchronised _ _ => s.closeFrame

/-- The state once the line acceptance of another party's frame is counted (R147, R153), before its dispatch. -/
def State.accepted (s : State) : State := (s.closed.count .acceptedFrames).noteAcceptance

/-! ### The parts of a tick -/

/-- R137, R190: what a bit time does in the Line Pair Interface: the frame of the station's own moves on by a bit, the
decoder by its place, and the choice of a candidate is open again (the mark `chosen`: assumption log 14). -/
def Lpi.nextBit (l : Lpi) : Lpi :=
  { l with
    transmission := l.transmission.map fun x => { x with bit := x.bit + 1 }
    decoder := l.decoder.advance
    chosen := false }

/-- R137, R141, R145, R155: `t` is `s` behind the LPI's part of a tick: a frame of the station's own that has not run
its length stays as it is, and one that has is accepted as by OWN_FRAME_ACCEPTED (assumption log 5); with none on the
wire, the choice of a candidate is as by TRANSMIT_START. -/
def State.LpiPart (s t : State) : Prop :=
  (∀ x, s.lpi.transmission = some x →
    (x.bit < x.frame.ticks → t = s) ∧ (x.frame.ticks ≤ x.bit → exec .ownFrameAccepted s = .next t)) ∧
  (s.lpi.transmission = none → exec .transmitStart s = .next t)

/-- R96, R97: `t` is `s` behind a local tick of line `n`'s countdown: one that runs out expires as by ON_TIME_EXPIRY. -/
def State.CountdownPart (n : LineId) (s t : State) : Prop :=
  ((s.drive n).counted = true ∨ (s.drive n).countdown = none → t = s) ∧
  ((s.drive n).counted = false →
    ((s.drive n).countdown = some 1 → exec (.onTimeExpiry n) s = .next t) ∧
    (∀ r, 1 < r → (s.drive n).countdown = some r →
      t = s.mapDrive n fun d => { d with countdown := some (r - 1) }))

/-- R122: `t` is `s` behind a sample of line `n` whose pin keeps its level (assumption log 5): a record goes forward, and
one that runs out is accepted as by EDGE_ACCEPT. -/
def State.SamplePart (n : LineId) (s t : State) : Prop :=
  ((s.line n).sampled = true ∨ (s.line n).record = none → t = s) ∧
  (∀ r, (s.line n).sampled = false → (s.line n).record = some r →
    (r.remaining ≤ 1 → exec (.edgeAccept n) s = .next t) ∧
    (1 < r.remaining → t = s.mapLine n fun l => { l with record := some { r with remaining := r.remaining - 1 } }))

/-- `t` is `s` behind a part of every line, L0 first (assumption log 2). -/
def State.LineByLine (part : LineId → State → State → Prop) (s t : State) : Prop :=
  ∃ c : Nat → State, c 0 = s ∧ c 8 = t ∧ ∀ n : LineId, part n (c n.val) (c (n.val + 1))

/-- The head of the time schedule, if any, is not due at the present instant (R76). -/
def State.NoTimeHeadDue (s : State) : Prop :=
  ∀ a rest, s.asc.time = a :: rest → Instant.atOrBefore s.period a.due s.now = false

/-- The head of the travel schedule, if any, is not due at the present position (R76). -/
def State.NoTravelHeadDue (s : State) : Prop :=
  ∀ a rest, s.asc.travel = a :: rest → 0 < signedDifference a.due s.tvu.position

end Sys2Proof.Machine
end

