-- ==== Sys2Proof/Certificates/Slice0/Obligations.lean ====
section
/-! DEFINITION. The statements about the model that are to be proved. -/

open Sys2Proof Sys2Proof.Machine

/-! ### The machine as a whole -/

/-- A step takes the command at the front of the queue and runs it with the queue's rest. -/
def Obligations.StepRunsFrontCommand : Prop :=
  ∀ (c : Instr) (s : State), step { s with pending := c :: s.pending } = exec c s

/-- No command stops the station, and none touches the queue (no rule gives the station a stop: log 3, log 27). -/
def Obligations.EveryCommandCompletes : Prop :=
  ∀ (c : Instr) (s : State), ∃ t, exec c s = .next t ∧ t.pending = s.pending

/-- R5, R6, R8, R9, R18, R96, R97, R121, R122, R127, R129, R130, R131, R132, R137, R141, R145, R182, and the model's
choice that the step on an empty queue is one tick (log 1), of a RUNNING station in two halves (log 2). The first half
is the LTU's: it is the event's command where an event falls, and else one tick of the phase or of the hold. The second
half takes the parts that no command of the tick has taken (the marks of log 14), in the model's order (log 2): the
LPI's part as by OWN_FRAME_ACCEPTED or TRANSMIT_START; line by line the countdowns, one that runs out as by
ON_TIME_EXPIRY; the dead times; line by line the filter records, one that runs out as by EDGE_ACCEPT; the pulses, and
read-back by the table of R132. Nothing else changes any block: where no countdown and no record runs out, the
subscriptions, the schedules, the travel, the counters and, unless an own frame ends, the mark-out queue are as before.
It then presents DRIVE lines at their demand, CYCLE_OUT lines by their pulse, and no other line, its pins show those
levels by their polarity, and the frame on the wire and the decoder move on by a bit time. A CONFIGURING station moves
its image read and that bit time, one held in reset nothing, and a HALTED one the LPI's part and the bit time alone. No
command takes its part of a tick a second time (log 14). The model's choices besides: every pin keeps its level and the
line shows nothing new while no command comes, so a record goes forward and the own frame is undisturbed (log 5); the
pin that something holds decides whether a comparison agrees (log 15); a byte of the image comes in at the end of its
step (log 10); and the read waits at its end for the command that ends it (log 12). -/
def Obligations.BareTick : Prop :=
  (∀ s : State, s.pending = [] → s.running = true → s.ltu.ticked = false →
    (s.ltu.sync = .listen → s.now.phase + 1 < s.period →
      step s = .next { s with ltu := { s.ltu with
        instant := { s.now with phase := s.now.phase + 1 }, ticked := true } }) ∧
    (s.ltu.sync = .listen → s.period ≤ s.now.phase + 1 → s.ltu.listenCount + 1 < s.joinWait →
      step s = exec .listenWrap s) ∧
    (s.ltu.sync = .listen → s.period ≤ s.now.phase + 1 → s.joinWait ≤ s.ltu.listenCount + 1 →
      step s = exec .selfStart s) ∧
    (s.ltu.sync = .locked → 1 < s.ltu.hold →
      step s = .next { s with ltu := { s.ltu with hold := s.ltu.hold - 1, ticked := true } }) ∧
    (s.ltu.sync = .locked → s.ltu.hold = 1 → step s = exec .holdEnd s) ∧
    (s.ltu.sync = .locked → s.ltu.hold = 0 → s.period ≤ s.now.phase + 1 → step s = exec .cycleExpiry s) ∧
    (s.ltu.sync = .locked → s.ltu.hold = 0 → s.now.phase + 1 < s.period →
      (∀ a rest, s.asc.time = a :: rest → Instant.atOrBefore s.period a.due s.nextInstant = true →
        step s = exec .timeHeadDue s) ∧
      ((∀ a rest, s.asc.time = a :: rest → Instant.atOrBefore s.period a.due s.nextInstant = false) →
        step s = .next { s with ltu := { s.ltu with
          instant := { s.now with phase := s.now.phase + 1 }, ticked := true } }))) ∧
  (∀ s : State, s.pending = [] → s.running = true → s.ltu.ticked = true →
    ∃ t u v w, step s = .next t ∧ s.LpiPart u ∧ u.LineByLine State.CountdownPart v ∧
      (v.mapLines fun l => if l.deadCounted then l else { l with deadTime := l.deadTime - 1 }).LineByLine
        State.SamplePart w ∧
      t.lpi = u.lpi.nextBit ∧ t.ltu = { u.ltu with ticked := false } ∧
      t.ltu = { s.ltu with slot := t.ltu.slot, ticked := false } ∧ t.cfl = s.cfl ∧ t.srh = s.srh ∧
      t.pending = s.pending ∧ t.sbs = w.sbs ∧ t.mku = w.mku ∧ t.asc = w.asc ∧ t.tvu = w.tvu ∧
      t.fru = { w.fru with events := { w.fru.events with driveMismatch := t.fru.events.driveMismatch } } ∧
      (t.fru.events.driveMismatch = true ↔ w.fru.events.driveMismatch = true ∨ ∃ n level,
        (s.line n).compared = false ∧ s.functionOf n = .drive ∧ (s.line n).presented = some level ∧
        (s.line n).pinHeld = some level.other ∧ 63 ≤ (s.line n).mismatchTimer) ∧
      (∀ n : LineId, t.drive n = { w.drive n with counted := false } ∧
        (t.line n).filtered = (w.line n).filtered ∧ (t.line n).record = (w.line n).record ∧
        (t.line n).deadTime = (w.line n).deadTime ∧ (t.line n).pinHeld = (s.line n).pinHeld ∧
        (t.line n).sampled = false ∧ (t.line n).deadCounted = false ∧ (t.line n).pulseCounted = false ∧
        (t.line n).compared = false) ∧
      (∀ n : LineId, (t.line n).settings = (s.line n).settings ∧
        (s.functionOf n = .drive → (t.line n).presented = some (t.drive n).demand) ∧
        (s.functionOf n = .cycleOut →
          (t.line n).presented = some (if 0 < (t.line n).pulse then .active else .inactive)) ∧
        ((s.functionOf n).driven = false → (t.line n).presented = none ∧ t.outputPin n = none) ∧
        (∀ level, (t.line n).presented = some level →
          ((t.line n).settings.polarity = .activeHigh → t.outputPin n = some (decide (level = .active))) ∧
          ((t.line n).settings.polarity = .activeLow → t.outputPin n = some (decide (level = .inactive)))) ∧
        (t.line n).pulse = (if (s.line n).pulseCounted then (s.line n).pulse else (s.line n).pulse - 1) ∧
        ((s.line n).compared = true ∨ s.functionOf n ≠ .drive ∨ (s.line n).presented = none →
          (t.line n).mismatchTimer = (s.line n).mismatchTimer ∧ (t.line n).mismatch = (s.line n).mismatch) ∧
        (∀ level, (s.line n).compared = false → s.functionOf n = .drive → (s.line n).presented = some level →
          ((s.line n).pinHeld = none ∨ (s.line n).pinHeld = some level →
            (t.line n).mismatchTimer = 0 ∧ (t.line n).mismatch = false) ∧
          ((s.line n).pinHeld = some level.other → (s.line n).mismatchTimer < 63 →
            (t.line n).mismatchTimer = (s.line n).mismatchTimer + 1 ∧
            (t.line n).mismatch = (s.line n).mismatch) ∧
          ((s.line n).pinHeld = some level.other → 63 ≤ (s.line n).mismatchTimer →
            (t.line n).mismatchTimer = 64 ∧ (t.line n).mismatch = true ∧
            t.fru.events.driveMismatch = true))) ∧
      ((∀ n, (s.drive n).counted = false → ∀ r, (s.drive n).countdown = some r → 1 < r) →
        (∀ n r, (s.line n).sampled = false → (s.line n).record = some r → 1 < r.remaining) →
        t.sbs = s.sbs ∧ t.mku = u.mku ∧ t.asc = s.asc ∧ t.tvu = s.tvu ∧
        ((∀ x, s.lpi.transmission = some x → x.bit < x.frame.ticks) → t.mku = s.mku) ∧
        t.fru = { u.fru with events := { s.fru.events with driveMismatch := t.fru.events.driveMismatch } } ∧
        t.fru.counters = s.fru.counters ∧
        ∀ n : LineId, (t.line n).filtered = (s.line n).filtered ∧
          (t.drive n).claim = (s.drive n).claim ∧ (t.drive n).limit = (s.drive n).limit ∧
          (t.drive n).countdown =
            (if (s.drive n).counted then (s.drive n).countdown else (s.drive n).countdown.map (· - 1)) ∧
          (t.line n).deadTime = (if (s.line n).deadCounted then (s.line n).deadTime else (s.line n).deadTime - 1) ∧
          ((s.line n).sampled = true ∨ (s.line n).record = none → (t.line n).record = (s.line n).record) ∧
          (∀ r, (s.line n).sampled = false → (s.line n).record = some r →
            (t.line n).record = some { r with remaining := r.remaining - 1 }))) ∧
  (∀ s : State, s.pending = [] → s.cfl.run = .configuring →
    (s.cfl.read = .notBegun → step s = .next s) ∧
    (∀ k, s.cfl.read = .reading k → ∃ t, step s = .next t ∧
      t.cfl = { s.cfl with
        read := .reading (min s.cfl.memory.readTicks (k + 1))
        buffer := receivedBytes s.cfl.memory (min s.cfl.memory.readTicks (k + 1)) } ∧
      t.lpi = s.lpi.nextBit ∧ t.pending = s.pending ∧
      t.ltu = s.ltu ∧ t.sbs = s.sbs ∧ t.mku = s.mku ∧ t.asc = s.asc ∧ t.dcu = s.dcu ∧ t.tvu = s.tvu ∧
      t.llu = s.llu ∧ t.fru = s.fru ∧ t.srh = s.srh)) ∧
  (∀ s : State, s.pending = [] → s.cfl.run = .halted → ∃ t u, step s = .next t ∧ s.LpiPart u ∧
    t = { u with lpi := u.lpi.nextBit } ∧ t.cfl = s.cfl ∧ t.sbs = s.sbs ∧ t.asc = s.asc ∧ t.dcu = s.dcu ∧ t.tvu = s.tvu ∧ t.llu = s.llu ∧ t.srh = s.srh ∧
    t.fru.events = s.fru.events ∧ t.fru.counters = s.fru.counters ∧ t.lpi.state = s.lpi.state) ∧
  (∀ s : State, s.ltu.ticked = true → exec .listenWrap s = .next s ∧ exec .selfStart s = .next s ∧
    exec .cycleExpiry s = .next s ∧ exec .holdEnd s = .next s ∧ exec .timeHeadDue s = .next s) ∧
  (∀ (s : State) (n : LineId),
    ((s.line n).sampled = true → exec (.firstSight n) s = .next s ∧ exec (.filterReversion n) s = .next s ∧
      exec (.edgeAccept n) s = .next s) ∧
    ((s.drive n).counted = true → exec (.onTimeExpiry n) s = .next s) ∧
    ((s.line n).compared = true → exec (.mismatchDetected n) s = .next s ∧ exec (.readBackAgreement n) s = .next s))

/-! ### Start -/

/-- R181, R3, R40, R42, R65, R91, R104, R119, R138, R140, R157, R162, R171, R180: a pin reset, from any state, takes
every block to its pin-reset values, and the commands that wait go on waiting; at the release of RESET the straps
become the station address and the image read begins, and nothing else of the station changes. The model's own: the
marks (log 14), the pin that nothing holds (log 15), the address before the straps are sampled (log 9), and the picture
of the memory (log 11). -/
def Obligations.PinResetAndRelease : Prop :=
  (∀ s : State, ∃ t, exec .pinReset s = .next t ∧ t.pending = s.pending ∧
    t.cfl = { run := .configuring, address := 0#5, read := .notBegun, memory := SerialMemory.unread, buffer := [],
              identity := 0#16, checkValue := 0#16, haltCode := 0 } ∧
    t.ltu = { sync := .listen, instant := { cycle := 0#32, phase := 0 }, hold := 0, streak := 0, leadStray := false,
              adopted := false, listenCount := 0, slot := .empty, lastSource := none, params := none,
              ticked := false } ∧
    (∀ a, t.sbs.sourceMap.get a = none) ∧
    (∀ e, t.entry e = { valid := false, domain := .time, delay := 0#24, template := 0, qualifier := none,
                        shadow := none, lastSeen := none }) ∧
    (∀ k, (t.sbs.templates.get k).count = 0 ∧
      ∀ j, (t.sbs.templates.get k).steps.get j = { op := .noOp, line := 0, gap := 0#16 }) ∧
    (∀ c, t.mku.counters.get c = 0#8) ∧ t.mku.queue = [] ∧
    t.asc = { free := List.finRange 48, time := [], travel := [], limits := none } ∧
    (∀ n, t.drive n = { claim := 0, limit := 0, countdown := none, counted := false } ∧
      (t.drive n).demand = .inactive) ∧
    t.tvu = { mode := .none, position := 0#32, history := [] } ∧
    (∀ n, t.line n =
      { settings := { function := .unused, polarity := .activeHigh, edges := .rising, filterWidth := 0,
                      deadTime := 0, pulseWidth := 0, channel := 0, publish := false, localRoute := false }
        filtered := .inactive, record := none, deadTime := 0, presented := none, pulse := 0, mismatchTimer := 0,
        mismatch := false, pinHeld := none, sampled := false, deadCounted := false, pulseCounted := false,
        compared := false }) ∧
    t.lpi = { state := .silent, faultCount := 0, acceptedRun := 0, quietCycles := 0, frameStart := false,
              transmission := none, decoder := .unsynchronised 0 false, chosen := false } ∧
    (∀ received, t.ltx received = true) ∧ t.linkReleased = true ∧
    (∀ f, t.fru.events.has f = false) ∧ (∀ c, t.fru.counters.value c = 0) ∧ t.fru.mask = 0#16 ∧
    t.fru.reportSlot = .empty ∧ t.fru.heldPage = none ∧ t.srh = { lineTag := none } ∧
    t.faultLine = false ∧ t.notLocked = true) ∧
  (∀ (s : State) (start : StartReads), s.cfl.run = .configuring → s.cfl.read = .notBegun →
    exec (.resetRelease start) s =
      .next { s with cfl := { s.cfl with address := start.straps, read := .reading 0, memory := start.memory } })

/-- R182, R183, R184, R189, R162, R180: a memory that does not answer, CSDA low over nine clock pulses or, else, an
acknowledgement high, halts the start with code 1, the image identity and check value as they were (0 since the start);
an image that fails a check halts it with the code of the first failing check, its identity and check value kept.
Either way the LPI is REPORT_ONLY with its counts 0, the FAULT line active and every other block untouched. A read
without an answer ends with a stop condition behind the first sign of it. The empty image buffer (log 10), and that the
event closes the read's last tick whenever it comes (logs 12 and 32), are the model's. -/
def Obligations.FailedStartHalts : Prop :=
  (∀ m : SerialMemory,
    (9 < m.pulses → m.script = List.replicate 9 .recoveryPulse ++ [.stopCondition]) ∧
    (m.pulses ≤ 9 →
      let pulses := List.replicate m.pulses LinkStep.recoveryPulse
      (m.refuses = some .deviceWrite →
        m.script = pulses ++ [.startCondition, .deviceAddress .write, .stopCondition]) ∧
      (m.refuses = some .offsetHigh →
        m.script = pulses ++ [.startCondition, .deviceAddress .write, .offsetHigh, .stopCondition]) ∧
      (m.refuses = some .offsetLow →
        m.script = pulses ++ [.startCondition, .deviceAddress .write, .offsetHigh, .offsetLow, .stopCondition]) ∧
      (m.refuses = some .deviceRead →
        m.script = pulses ++ [.startCondition, .deviceAddress .write, .offsetHigh, .offsetLow, .repeatedStart,
          .deviceAddress .read, .stopCondition]))) ∧
  (∀ (s : State) (k : Nat) (place : Option MemoryAck), s.cfl.run = .configuring → s.cfl.read = .reading k →
    ((9 < s.cfl.memory.pulses ∧ place = none) ∨
      (s.cfl.memory.pulses ≤ 9 ∧ s.cfl.memory.refuses = place ∧ place ≠ none)) →
    ∃ t, exec (.memoryNotAnswering place) s = .next t ∧
      t.cfl = { s.cfl with run := .halted, read := .ended, buffer := [], haltCode := 1 } ∧
      t.lpi = { s.lpi with
        state := .reportOnly, faultCount := 0, acceptedRun := 0, quietCycles := 0, frameStart := false
        decoder := s.lpi.decoder.advanceBy (s.cfl.memory.readTicks - k) } ∧ t.faultLine = true ∧
      t.ltu = s.ltu ∧ t.sbs = s.sbs ∧ t.mku = s.mku ∧ t.asc = s.asc ∧ t.dcu = s.dcu ∧ t.tvu = s.tvu ∧
      t.llu = s.llu ∧ t.fru = s.fru ∧ t.srh = s.srh) ∧
  (∀ (s : State) (pins : BitVec 8) (k : Nat), s.cfl.run = .configuring → s.cfl.read = .reading k →
    s.cfl.memory.pulses ≤ 9 → s.cfl.memory.refuses = none →
    Image.haltCode (deliveredImage s.cfl.memory.bytes) ≠ 0 →
    ∃ t, exec (.imageChecks s.cfl.memory.bytes pins) s = .next t ∧
      t.cfl = { s.cfl with
        run := .halted, read := .ended, buffer := []
        identity := half16At (deliveredImage s.cfl.memory.bytes) 4
        checkValue := half16At (deliveredImage s.cfl.memory.bytes) 6
        haltCode := Image.haltCode (deliveredImage s.cfl.memory.bytes) } ∧
      t.lpi = { s.lpi with
        state := .reportOnly, faultCount := 0, acceptedRun := 0, quietCycles := 0, frameStart := false
        decoder := s.lpi.decoder.advanceBy (s.cfl.memory.readTicks - k) } ∧ t.faultLine = true ∧
      t.ltu = s.ltu ∧ t.sbs = s.sbs ∧ t.mku = s.mku ∧ t.asc = s.asc ∧ t.dcu = s.dcu ∧ t.tvu = s.tvu ∧
      t.llu = s.llu ∧ t.fru = s.fru ∧ t.srh = s.srh)

/-- R182: a read whose memory answers at once takes 6,879 bit times of ten local ticks, and has then brought the whole
image into the buffer. R188, R125, R193: an image that passes every check is distributed, byte by byte of its layout,
and the station enters RUNNING with the LPI ACTIVE; every SENSE, ZERO and ENC line takes its pin's level, and a line of
another function is INACTIVE, as it was; no other state changes. The empty image buffer (log 10), the ticks that the
event lets pass (log 12) and the marks of the tick (log 14, log 30) are the model's. -/
def Obligations.PassedImageRuns : Prop :=
  (∀ m : SerialMemory, m.pulses = 0 → m.refuses = none →
    m.readTicks = 68790 ∧ receivedBytes m m.readTicks = deliveredImage m.bytes) ∧
  ∀ (s : State) (pins : BitVec 8) (k : Nat), s.cfl.run = .configuring → s.cfl.read = .reading k →
    s.cfl.memory.pulses ≤ 9 → s.cfl.memory.refuses = none →
    let image := deliveredImage s.cfl.memory.bytes
    let b := fun i => (byteAt image i).toNat
    let h := fun i => (half16At image i).toNat
    Image.haltCode image = 0 →
    ∃ t, exec (.imageChecks s.cfl.memory.bytes pins) s = .next t ∧
      t.cfl = { s.cfl with run := .running, read := .ended, buffer := [], identity := half16At image 4,
                           checkValue := half16At image 6, haltCode := 0 } ∧
      t.lpi = { s.lpi with
        state := .active, faultCount := 0, acceptedRun := 0, quietCycles := 0, frameStart := false
        decoder := s.lpi.decoder.advanceBy (s.cfl.memory.readTicks - k) } ∧
      t.ltu = { s.ltu with
        params := some { period := h 8, window := h 10, joinWait := b 12, strayLimit := b 13 }, ticked := true } ∧
      t.asc = { s.asc with limits := some { time := h 14, travel := h 16 } } ∧
      t.srh = { lineTag := some (half16At image 18) } ∧
      t.tvu = { s.tvu with mode := t.tvu.mode } ∧ (b 20 = 0 → t.tvu.mode = .none) ∧
      (b 20 = 1 → t.tvu.mode = .pulse) ∧ (b 20 = 2 → t.tvu.mode = .quad) ∧
      t.fru = { s.fru with mask := half16At image 21 } ∧
      (∀ n : LineId,
        let o := 24 + 8 * n.val
        let c := byteAt image (o + 1)
        let l := (t.line n).settings
        (b o = 0 → l.function = .unused) ∧ (b o = 1 → l.function = .sense) ∧ (b o = 2 → l.function = .drive) ∧
        (b o = 3 → l.function = .zero) ∧ (b o = 4 → l.function = .cycleOut) ∧ (b o = 5 → l.function = .enc) ∧
        l.polarity = (if c.getLsbD 0 then .activeLow else .activeHigh) ∧
        ((c.extractLsb' 1 2).toNat = 0 → l.edges = .rising) ∧ ((c.extractLsb' 1 2).toNat = 1 → l.edges = .falling) ∧
        ((c.extractLsb' 1 2).toNat = 2 → l.edges = .both) ∧ l.publish = c.getLsbD 3 ∧ l.localRoute = c.getLsbD 4 ∧
        l.channel.val = (c.extractLsb' 5 3).toNat ∧ l.filterWidth = b (o + 2) ∧ l.deadTime = h (o + 3) ∧
        l.pulseWidth = h (o + 5) ∧ t.drive n = { s.drive n with limit := h (o + 5) } ∧
        t.line n = { s.line n with
          settings := l
          filtered := if l.function.sampled then Level.ofPin l.polarity (pins.getLsbD n.val) else .inactive
          sampled := true, deadCounted := true, pulseCounted := true, compared := true }) ∧
      (∀ a : Fin 32, (∀ bank : Fin 8, b (88 + a.val) = bank.val → t.sbs.sourceMap.get a = some bank) ∧
        (b (88 + a.val) = 255 → t.sbs.sourceMap.get a = none)) ∧
      (∀ e : Fin 64,
        let o := 120 + 6 * e.val
        let c := byteAt image o
        let q := byteAt image (o + 4)
        t.entry e = { valid := c.getLsbD 7, domain := if c.getLsbD 6 then .travel else .time
                      delay := field24At image (o + 1), template := (t.entry e).template
                      qualifier := (t.entry e).qualifier, shadow := none, lastSeen := none } ∧
        (t.entry e).template.val = (c.extractLsb' 0 4).toNat ∧
        (q.getLsbD 7 = false → (t.entry e).qualifier = none) ∧
        (q.getLsbD 7 = true → ∃ x, (t.entry e).qualifier = some x ∧ x.line.val = (q.extractLsb' 0 3).toNat ∧
          (x.level = .active ↔ q.getLsbD 6 = true))) ∧
      (∀ k : Fin 16, (t.sbs.templates.get k).count = b (504 + 16 * k.val) ∧
        ∀ j : Fin 4,
          let o := 504 + 16 * k.val + 4 + 3 * j.val
          let c := byteAt image o
          let x := (t.sbs.templates.get k).steps.get j
          (x.op = .assert ↔ (c.extractLsb' 6 2).toNat = 1) ∧ (x.op = .release ↔ (c.extractLsb' 6 2).toNat = 2) ∧
          x.line.val = (c.extractLsb' 0 3).toNat ∧ x.gap = half16At image (o + 1)) ∧
      t.mku = s.mku

/-- R184: the checks are taken in code order and the first that fails decides the code. What each one reads, byte by
byte: R185 (the header), R186 (code 5, spelled beside this), R187, R27, R105 and R118 (code 6: the line records, the
ENC lines of the travel mode, and the valid subscription records), R187 and R25 (code 7: the source map), and R29 and
R30 of the templates that a valid subscription record names (code 8: the step count, the ops, and the ordering, in which
a line stands asserted before step j when a step before j asserts it and none between releases it; code 9: every step in
use names a DRIVE line). -/
def Obligations.FirstFailingCheckDecides : Prop :=
  ∀ img : List Byte,
    let ok2 := half16At img 0 = 0x0A01#16
    let ok3 := (half16At img 2).toNat = 760
    let ok4 := crcOf (bytesBits (img.drop 8)) = half16At img 6
    let ok5 := Image.parametersInRange img = true
    let b := fun i => (byteAt img i).toNat
    let function := fun n : Nat => b (24 + 8 * n)
    let ok6 :=
      (∀ n < 8,
        let edges := ((byteAt img (24 + 8 * n + 1)).extractLsb' 1 2).toNat
        let pulse := (half16At img (24 + 8 * n + 5)).toNat
        function n ≤ 5 ∧ (function n = 1 ∨ function n = 3 → edges ≤ 2) ∧
        (function n = 4 → 0 < pulse ∧ pulse < (half16At img 8).toNat) ∧
        (function n = 5 ↔ (b 20 = 1 ∧ n = 6) ∨ (b 20 = 2 ∧ (n = 6 ∨ n = 7)))) ∧
      (∀ e < 64, (byteAt img (120 + 6 * e)).getLsbD 7 = true →
        let qualifier := byteAt img (120 + 6 * e + 4)
        (qualifier.getLsbD 7 = true → function (qualifier.extractLsb' 0 3).toNat = 1) ∧
        ((byteAt img (120 + 6 * e)).getLsbD 6 = true → b 20 ≠ 0))
    let ok7 := ∀ a < 32, b (88 + a) ≤ 7 ∨ b (88 + a) = 0xFF
    let named := fun k : Nat => ∃ e < 64, (byteAt img (120 + 6 * e)).getLsbD 7 = true ∧
      ((byteAt img (120 + 6 * e)).extractLsb' 0 4).toNat = k
    let count := fun k : Nat => b (504 + 16 * k)
    let op := fun k j : Nat => ((byteAt img (504 + 16 * k + 4 + 3 * j)).extractLsb' 6 2).toNat
    let line := fun k j : Nat => ((byteAt img (504 + 16 * k + 4 + 3 * j)).extractLsb' 0 3).toNat
    let asserted := fun k j l : Nat =>
      ∃ i < j, op k i = 1 ∧ line k i = l ∧ ∀ m, i < m → m < j → ¬(op k m = 2 ∧ line k m = l)
    let ok8 := ∀ k, named k → 1 ≤ count k ∧ count k ≤ 4 ∧
      (∀ j < count k, (op k j = 1 ∧ ¬asserted k j (line k j)) ∨ (op k j = 2 ∧ asserted k j (line k j))) ∧
      (∀ l < 8, ¬asserted k (count k) l)
    let ok9 := ∀ k, named k → ∀ j < count k, function (line k j) = 2
    (Image.haltCode img = 2 ↔ ¬ok2) ∧
    (Image.haltCode img = 3 ↔ ok2 ∧ ¬ok3) ∧
    (Image.haltCode img = 4 ↔ ok2 ∧ ok3 ∧ ¬ok4) ∧
    (Image.haltCode img = 5 ↔ ok2 ∧ ok3 ∧ ok4 ∧ ¬ok5) ∧
    (Image.haltCode img = 6 ↔ ok2 ∧ ok3 ∧ ok4 ∧ ok5 ∧ ¬ok6) ∧
    (Image.haltCode img = 7 ↔ ok2 ∧ ok3 ∧ ok4 ∧ ok5 ∧ ok6 ∧ ¬ok7) ∧
    (Image.haltCode img = 8 ↔ ok2 ∧ ok3 ∧ ok4 ∧ ok5 ∧ ok6 ∧ ok7 ∧ ¬ok8) ∧
    (Image.haltCode img = 9 ↔ ok2 ∧ ok3 ∧ ok4 ∧ ok5 ∧ ok6 ∧ ok7 ∧ ok8 ∧ ¬ok9) ∧
    (Image.haltCode img = 0 ↔ ok2 ∧ ok3 ∧ ok4 ∧ ok5 ∧ ok6 ∧ ok7 ∧ ok8 ∧ ok9)

/-- R186: the check of code 5 reads the fields of the station record: it passes exactly when P, W, JOIN_WAIT,
STRAY_LIMIT and the travel mode, as bytes 8 to 13 and 20 hold them, are in range; no other byte can fail it. -/
def Obligations.ParameterRanges : Prop :=
  ∀ img : List Byte,
    let b := fun i => (byteAt img i).toNat
    let p := 256 * b 8 + b 9
    let w := 256 * b 10 + b 11
    Image.parametersInRange img = true ↔
      (1000 ≤ p ∧ p ≤ 65535) ∧ (16 ≤ w ∧ w ≤ p / 4) ∧ (2 ≤ b 12 ∧ b 12 ≤ 255) ∧ (1 ≤ b 13 ∧ b 13 ≤ 15) ∧
        (b 20 = 0 ∨ b 20 = 1 ∨ b 20 = 2)

/-! ### Line time -/

/-- R1: the sum of an instant and a delay lies that delay ahead (for delays short of 2^31 cycles) and has a phase below
P. R23, R85: instants moved by one timeline shift keep the distance between them. -/
def Obligations.InstantArithmetic : Prop :=
  (∀ (p : Nat) (i : Instant) (d : Nat), 0 < p → i.phase < p → (i.phase + d) / p < 2147483648 →
    Instant.distance p i (Instant.add p i d) = (d : Int) ∧ (Instant.add p i d).phase < p) ∧
  (∀ (p : Nat) (i j : Instant) (d : Nat), 0 < p → i.phase < p → j.phase < p →
    -2147483648 < (j.cycle - i.cycle).toInt → (j.cycle - i.cycle).toInt < 2147483647 →
    Instant.distance p (Instant.add p i d) (Instant.add p j d) = Instant.distance p i j)

/-- R5: a wrap in LISTEN sets the phase to 0 and counts one cycle, and does nothing else. R18: the tick that ends a
hold does not advance the line instant, and touches nothing else. The mark `ticked`, with which a tick has one of these
once, is the model's (log 14). -/
def Obligations.WrapAndHoldEnd : Prop :=
  (∀ s : State, s.running = true → s.ltu.sync = .listen → s.ltu.ticked = false → s.period ≤ s.now.phase + 1 →
    s.ltu.listenCount + 1 < s.joinWait →
    exec .listenWrap s = .next { s with ltu := { s.ltu with
      instant := { s.now with phase := 0 }, listenCount := s.ltu.listenCount + 1, ticked := true } }) ∧
  (∀ s : State, s.running = true → s.ltu.sync = .locked → s.ltu.ticked = false → s.ltu.hold = 1 →
    exec .holdEnd s = .next { s with ltu := { s.ltu with hold := 0, ticked := true } })

/-- R6, R10, R21, R37, R110, R131, R153: the self-start, with the reactions of the cycle-boundary event for cycle 0; a
station that is not MUTED offers a beacon, a MUTED one keeps its slot. The mark `ticked` is the model's (log 14). -/
def Obligations.SelfStartLocks : Prop :=
  ∀ s : State, s.running = true → s.ltu.sync = .listen → s.ltu.ticked = false → s.period ≤ s.now.phase + 1 →
    s.joinWait ≤ s.ltu.listenCount + 1 →
    ∃ t, exec .selfStart s = .next t ∧
      t.ltu = { s.ltu with sync := .locked, instant := { cycle := 0#32, phase := 0 }, listenCount := 0, streak := 0,
                           leadStray := false, adopted := false, ticked := true,
                           slot := if s.lpi.state = .muted then s.ltu.slot else .offered } ∧
      s.BoundaryTaken t 0#32 ∧ s.lpi.QuietStepTaken t.lpi ∧
      t.asc = s.asc ∧ t.dcu = s.dcu ∧ t.mku = s.mku ∧ t.fru = s.fru ∧ t.srh = s.srh ∧ t.cfl = s.cfl

/-- R9, R10, R21, R37, R110, R131, R76: the expiry of a cycle in a station that is not MUTED: the new cycle, the beacon
offered, every reaction to the boundary, and a pass at the new instant, which leaves no head due. The mark `ticked` is
the model's (log 14). -/
def Obligations.CycleExpiryBeginsTheCycle : Prop :=
  ∀ s : State, s.running = true → s.ltu.sync = .locked → s.ltu.ticked = false → s.ltu.hold = 0 →
    s.period ≤ s.now.phase + 1 →
    s.lpi.state ≠ .muted →
    ∃ t, exec .cycleExpiry s = .next t ∧
      t.ltu = { s.ltu with
        instant := { cycle := s.now.cycle + 1#32, phase := 0 }
        slot := if s.ltu.slot = .sending then .sending else .offered
        streak := if s.ltu.leadStray = true ∧ s.ltu.adopted = false then s.ltu.streak + 1 else 0
        leadStray := false, adopted := false, ticked := true } ∧
      s.BoundaryTaken t (s.now.cycle + 1#32) ∧ s.PassTaken t { cycle := s.now.cycle + 1#32, phase := 0 } ∧
      t.NoTimeHeadDue ∧ t.lpi = s.lpi ∧ t.mku = s.mku ∧ t.fru = s.fru ∧ t.srh = s.srh ∧ t.cfl = s.cfl

/-- R9, R152, R153: the expiry of a cycle in a MUTED station: a boundary that does not end the mute empties an offered
slot and steps the quiet cycles; one that ends it returns the LPI to ACTIVE with its counts 0, and the slot, which R9
sets behind the event, is OFFERED (that it sees the mute ended is an inference: log 8). The mark `ticked` is the
model's (log 14). -/
def Obligations.CycleExpiryInMute : Prop :=
  ∀ s : State, s.running = true → s.ltu.sync = .locked → s.ltu.ticked = false → s.ltu.hold = 0 →
    s.period ≤ s.now.phase + 1 →
    s.lpi.state = .muted → s.ltu.slot ≠ .sending →
    ∃ t, exec .cycleExpiry s = .next t ∧ t.now = { cycle := s.now.cycle + 1#32, phase := 0 } ∧
      (s.lpi.frameStart = true →
        t.lpi = { s.lpi with quietCycles := 0, frameStart := false } ∧ t.ltu.slot = .empty) ∧
      (s.lpi.frameStart = false → s.lpi.quietCycles + 1 < 4 →
        t.lpi = { s.lpi with quietCycles := s.lpi.quietCycles + 1 } ∧ t.ltu.slot = .empty) ∧
      (s.lpi.frameStart = false → 4 ≤ s.lpi.quietCycles + 1 →
        t.lpi = { s.lpi with state := .active, faultCount := 0, acceptedRun := 0, quietCycles := 0,
                             frameStart := false } ∧ t.ltu.slot = .offered) ∧
      t.ltu = { s.ltu with
        instant := { cycle := s.now.cycle + 1#32, phase := 0 }, slot := t.ltu.slot
        streak := if s.ltu.leadStray = true ∧ s.ltu.adopted = false then s.ltu.streak + 1 else 0
        leadStray := false, adopted := false, ticked := true } ∧
      s.BoundaryTaken t (s.now.cycle + 1#32) ∧ s.PassTaken t { cycle := s.now.cycle + 1#32, phase := 0 } ∧
      t.NoTimeHeadDue ∧ t.mku = s.mku ∧ t.fru = s.fru ∧ t.srh = s.srh ∧ t.cfl = s.cfl

/-- R8, R74, R76: the advance that finds the head of the time schedule due moves the line instant by one tick, and its
pass fires that head's step first and then whatever else is due, until no head is due; outside an expiry nothing but
line time, the time schedule, the free stack and the claims changes. That the command may come at an expiry (log 29)
and the mark `ticked` (log 14) are the model's. -/
def Obligations.TimeHeadDueFires : Prop :=
  ∀ (s : State) (a : Action Instant) (rest : List (Action Instant)),
    s.running = true → s.ltu.sync = .locked → s.ltu.ticked = false → s.ltu.hold = 0 →
    s.asc.time = a :: rest → Instant.atOrBefore s.period a.due s.nextInstant = true →
    let rules := timeRules s.period s.nextInstant
    let fired := (fireHead rules s.sbs.templates a rest s.timePool).pass rules s.sbs.templates
    ∃ t, exec .timeHeadDue s = .next t ∧ t.now = s.nextInstant ∧ t.NoTimeHeadDue ∧
      t.asc = { s.asc with time := fired.schedule, free := fired.free } ∧ t.dcu = fired.dcu ∧
      t.mku = s.mku ∧ t.fru = s.fru ∧ t.srh = s.srh ∧ t.cfl = s.cfl ∧
      t.lpi.transmission = s.lpi.transmission ∧ t.lpi.decoder = s.lpi.decoder ∧
      t.ltu = { s.ltu with instant := s.nextInstant, slot := t.ltu.slot, streak := t.ltu.streak,
                           leadStray := t.ltu.leadStray, adopted := t.ltu.adopted, ticked := true } ∧
      (s.now.phase + 1 < s.period → t.ltu = { s.ltu with instant := s.nextInstant, ticked := true } ∧
        t.sbs = s.sbs ∧ t.tvu = s.tvu ∧ t.llu = s.llu ∧ t.lpi = s.lpi) ∧
      (s.period ≤ s.now.phase + 1 → s.BoundaryTaken t (s.now.cycle + 1#32))

/-- R7, R15: a beacon of another period, or whose send phase is not below its period, sets PERIOD_MISMATCH and is used
for nothing, in LISTEN as in LOCKED. R15, R20: a stray sets STRAY and the count, and a lead stray its indicator; line
time goes on as it was. -/
def Obligations.BeaconNotAdopted : Prop :=
  (∀ (s : State) (source : Address) (cycle : Word) (phase period : Half),
    s.Heeds (.beacon source cycle phase period) → s.running = true → source ≠ s.cfl.address →
    (period.toNat ≠ s.period ∨ period.toNat ≤ phase.toNat) →
    exec (.beacon source cycle phase period) s = .next (s.accepted.setFlag .periodMismatch)) ∧
  (∀ (s : State) (source : Address) (cycle : Word) (phase period : Half),
    s.Heeds (.beacon source cycle phase period) → s.running = true → source ≠ s.cfl.address → s.ltu.sync = .locked →
    period.toNat = s.period → phase.toNat < period.toNat →
    let d := Instant.distance s.period s.now
      (Instant.add s.period { cycle := cycle, phase := phase.toNat } 95)
    (d < -(s.window : Int) →
      exec (.beacon source cycle phase period) s = .next ((s.accepted.setFlag .stray).count .strays)) ∧
    ((s.window : Int) < d → s.ltu.streak < s.strayLimit →
      ∃ t, exec (.beacon source cycle phase period) s = .next t ∧
        t.ltu = { s.ltu with leadStray := true } ∧
        t.fru = ((s.accepted.setFlag .stray).count .strays).fru ∧ t.lpi = s.accepted.lpi ∧
        t.sbs = s.sbs ∧ t.asc = s.asc ∧ t.dcu = s.dcu ∧ t.tvu = s.tvu ∧ t.llu = s.llu ∧ t.mku = s.mku ∧
        t.srh = s.srh ∧ t.cfl = s.cfl))

/-- R7, R153: adoption in LISTEN: the target instant of R14, LOCKED, the boundary of its cycle, the slot left as it is.
-/
def Obligations.BeaconAdoptedInListen : Prop :=
  ∀ (s : State) (source : Address) (cycle : Word) (phase period : Half),
    s.Heeds (.beacon source cycle phase period) → s.running = true → source ≠ s.cfl.address → s.ltu.sync = .listen →
    period.toNat = s.period → phase.toNat < period.toNat →
    let target := Instant.add s.period { cycle := cycle, phase := phase.toNat } 95
    ∃ t, exec (.beacon source cycle phase period) s = .next t ∧
      t.ltu = { s.ltu with instant := target, sync := .locked, listenCount := 0, lastSource := some source,
                           streak := 0, adopted := false, leadStray := false } ∧
      s.BoundaryTaken t target.cycle ∧ s.accepted.lpi.QuietStepTaken t.lpi ∧
      t.fru = s.accepted.fru ∧ t.asc = s.asc ∧ t.dcu = s.dcu ∧ t.mku = s.mku ∧ t.srh = s.srh ∧ t.cfl = s.cfl

/-- R15, R16, R19, R80, R153: a forward adoption: the line instant jumps to the target, a hold ends, the streak is 0,
an offered beacon is withdrawn, the boundary is taken when the jump enters another cycle, and the catch-up, a pass at
the target, leaves no head due; no flag is set and nothing counts as late. -/
def Obligations.BeaconAdoptedForward : Prop :=
  ∀ (s : State) (source : Address) (cycle : Word) (phase period : Half),
    s.Heeds (.beacon source cycle phase period) → s.running = true → source ≠ s.cfl.address → s.ltu.sync = .locked →
    period.toNat = s.period → phase.toNat < period.toNat →
    let target := Instant.add s.period { cycle := cycle, phase := phase.toNat } 95
    0 < Instant.distance s.period s.now target → Instant.distance s.period s.now target ≤ s.window →
    ∃ t, exec (.beacon source cycle phase period) s = .next t ∧
      t.ltu = { s.ltu with
        instant := target, hold := 0, streak := 0, lastSource := some source
        slot := if s.ltu.slot = .offered then .empty else s.ltu.slot
        adopted := decide (target.cycle = s.now.cycle)
        leadStray := s.ltu.leadStray && decide (target.cycle = s.now.cycle) } ∧
      (target.cycle = s.now.cycle → t.sbs = s.sbs ∧ t.tvu = s.tvu ∧ t.llu = s.llu ∧ t.lpi = s.accepted.lpi) ∧
      (target.cycle ≠ s.now.cycle → s.BoundaryTaken t target.cycle ∧ s.accepted.lpi.QuietStepTaken t.lpi) ∧
      s.PassTaken t target ∧ t.NoTimeHeadDue ∧ t.fru = s.accepted.fru ∧
      t.mku = s.mku ∧ t.srh = s.srh ∧ t.cfl = s.cfl

/-- R15, R17, R19: a backward adoption, or one in place: the instant stands, and the hold remainder becomes the
distance to the target, 0 in place. -/
def Obligations.BeaconAdoptedBackward : Prop :=
  ∀ (s : State) (source : Address) (cycle : Word) (phase period : Half),
    s.Heeds (.beacon source cycle phase period) → s.running = true → source ≠ s.cfl.address → s.ltu.sync = .locked →
    period.toNat = s.period → phase.toNat < period.toNat →
    let target := Instant.add s.period { cycle := cycle, phase := phase.toNat } 95
    Instant.distance s.period s.now target ≤ 0 → -(s.window : Int) ≤ Instant.distance s.period s.now target →
    ∃ t, exec (.beacon source cycle phase period) s = .next t ∧
      (t.ltu.hold : Int) = -Instant.distance s.period s.now target ∧
      t.ltu = { s.ltu with hold := t.ltu.hold, streak := 0, adopted := true, lastSource := some source,
                           slot := if s.ltu.slot = .offered then .empty else s.ltu.slot } ∧
      t.sbs = s.sbs ∧ t.asc = s.asc ∧ t.dcu = s.dcu ∧ t.tvu = s.tvu ∧ t.llu = s.llu ∧ t.mku = s.mku ∧
      t.fru = s.accepted.fru ∧ t.lpi = s.accepted.lpi ∧ t.srh = s.srh ∧ t.cfl = s.cfl

/-- R22, R23, R50, R85, R111, R124, R153: a merge: the jump to the target, every stored instant moved by the same
distance, the history restarted, one boundary when the cycle changes, the claims, the travel schedule and the travel
position as they were, and nothing fired. -/
def Obligations.BeaconMerge : Prop :=
  ∀ (s : State) (source : Address) (cycle : Word) (phase period : Half),
    s.Heeds (.beacon source cycle phase period) → s.running = true → source ≠ s.cfl.address → s.ltu.sync = .locked →
    period.toNat = s.period → phase.toNat < period.toNat → s.strayLimit ≤ s.ltu.streak →
    let target := Instant.add s.period { cycle := cycle, phase := phase.toNat } 95
    let d := Instant.distance s.period s.now target
    (s.window : Int) < d →
    ∃ t, exec (.beacon source cycle phase period) s = .next t ∧
      t.ltu = { s.ltu with
        instant := target, hold := 0, streak := 0, leadStray := false, adopted := false, lastSource := some source
        slot := if s.ltu.slot = .offered then .empty else s.ltu.slot } ∧
      t.asc = { s.asc with time := s.asc.time.map fun a => { a with due := Instant.add s.period a.due d.toNat } } ∧
      t.dcu = s.dcu ∧
      t.mku = { s.mku with
        queue := s.mku.queue.map fun q => { q with instant := Instant.add s.period q.instant d.toNat } } ∧
      t.tvu = { s.tvu with history := [{ cycle := target.cycle, position := s.tvu.position }] } ∧
      (∀ n, t.line n = { s.line n with
        record := ((s.line n).shiftRecord s.period d.toNat).record
        pulse := if target.cycle ≠ s.now.cycle ∧ s.functionOf n = .cycleOut then (s.line n).settings.pulseWidth
          else (s.line n).pulse
        pulseCounted := if target.cycle ≠ s.now.cycle ∧ s.functionOf n = .cycleOut then true
          else (s.line n).pulseCounted }) ∧
      (∀ e, t.entry e = if target.cycle = s.now.cycle then s.entry e else
        { s.entry e with delay := (s.entry e).shadow.getD (s.entry e).delay, shadow := none }) ∧
      t.sbs.sourceMap = s.sbs.sourceMap ∧ t.sbs.templates = s.sbs.templates ∧
      (target.cycle = s.now.cycle → t.lpi = s.accepted.lpi) ∧
      (target.cycle ≠ s.now.cycle → s.accepted.lpi.QuietStepTaken t.lpi) ∧
      t.fru = ((s.accepted.setFlag .merge).count .merges).fru ∧ t.srh = s.srh ∧ t.cfl = s.cfl

/-! ### Subscriptions and marks -/

/-- R52, R55, R57, R58, R59, R60: a received MARK that reaches a subscription: a duplicate counts and ends; every other
is tested against its qualifier, then becomes a request at the capture instant plus the delay, or at the travel
position there plus the delay, or, before the travel history, sets MARK_TOO_OLD; a mark that ends early keeps its
sequence write. The subscription is the valid entry bank × 8 + channel of the bank to which the source is mapped (R25,
R26, R31), and a qualifier holds when it is absent or its line's filtered level is its level (R33). -/
def Obligations.MarkTakesTheSteps : Prop :=
  ∀ (s : State) (source : Address) (octet : Byte) (seq : Byte) (cycleLow phase : Half) (i : Fin 64),
    s.Heeds (.mark source octet seq cycleLow phase) → s.running = true → s.ltu.sync = .locked →
    source ≠ s.cfl.address → phase.toNat < s.period →
    s.Names source (octet.toNat % 8) i →
    let capture : Instant := { cycle := rebuildCycle s.now.cycle cycleLow, phase := phase.toNat }
    let e := s.entry i
    let answer := exec (.mark source octet seq cycleLow phase) s
    (s.accepted.sequenceTest i seq = none → answer = .next (s.accepted.count .duplicates)) ∧
    (∀ s1, s.accepted.sequenceTest i seq = some s1 →
      (¬s.QualifierHolds e.qualifier → answer = .next s1) ∧
      (s.QualifierHolds e.qualifier → e.domain = .time →
        answer = .next (s1.admitTime (Instant.add s.period capture e.delay.toNat) e.template)) ∧
      (s.QualifierHolds e.qualifier → e.domain = .travel → s.positionAt capture = none →
        answer = .next (s1.setFlag .markTooOld)) ∧
      (∀ p, s.QualifierHolds e.qualifier → e.domain = .travel → s.positionAt capture = some p →
        answer = .next (s1.admitTravel (p + e.delay.setWidth 32) e.template)))

/-- R55: the sequence test of a mark that names entry `i`: a duplicate counts and ends with the last-seen sequence
unchanged; every other mark writes it and goes on, and a gap g sets MARK_GAP and counts g lost marks, stopping at
65,535. -/
def Obligations.SequenceTestTable : Prop :=
  ∀ (s : State) (i : Fin 64) (seq : Byte),
    ((s.entry i).lastSeen = none → s.sequenceTest i seq = some (s.sawSequence i seq)) ∧
    ((s.entry i).lastSeen = some seq → s.sequenceTest i seq = none ∧
      ∀ (source : Address) (channel : Fin 8) (capture : Instant) (position : State → Option Word),
        s.Names source channel.val i →
        s.processMark source channel seq capture position = s.count .duplicates) ∧
    (∀ m, (s.entry i).lastSeen = some m → m ≠ seq → (seq.toNat + 255 - m.toNat) % 256 = 0 →
      s.sequenceTest i seq = some (s.sawSequence i seq)) ∧
    (∀ m, (s.entry i).lastSeen = some m → m ≠ seq → 0 < (seq.toNat + 255 - m.toNat) % 256 →
      s.sequenceTest i seq = some { s.sawSequence i seq with fru := { s.fru with
        events := { s.fru.events with markGap := true }
        counters := { s.fru.counters with
          lostMarks := min 65535 (s.fru.counters.lostMarks + (seq.toNat + 255 - m.toNat) % 256) } } }) ∧
    ((s.sawSequence i seq).entry i).lastSeen = some seq ∧ (∀ j, j ≠ i → (s.sawSequence i seq).entry j = s.entry j)

/-- R52 to R60, R73: a mark on a valid TIME entry whose last-seen sequence is absent and whose qualifier is met, not
late and with a slot free, becomes an action filed at the capture instant plus the delay, in the slot at the top of
the free stack; nothing else but the last-seen sequence and the accepted-frame count changes. -/
def Obligations.MarkBecomesTimeAction : Prop :=
  ∀ (s : State) (source : Address) (octet : Byte) (seq : Byte) (cycleLow phase : Half) (i : Fin 64)
    (slot : Fin 48) (free : List (Fin 48)),
    s.Heeds (.mark source octet seq cycleLow phase) → s.running = true → s.ltu.sync = .locked →
    source ≠ s.cfl.address → phase.toNat < s.period →
    s.Names source (octet.toNat % 8) i → (s.entry i).lastSeen = none → (s.entry i).domain = .time →
    s.QualifierHolds (s.entry i).qualifier → s.asc.free = slot :: free →
    let capture : Instant := { cycle := rebuildCycle s.now.cycle cycleLow, phase := phase.toNat }
    let due := Instant.add s.period capture (s.entry i).delay.toNat
    Instant.distance s.period due s.now ≤ 0 →
    ∃ t, exec (.mark source octet seq cycleLow phase) s = .next t ∧
      t.asc = { s.asc with
        free := free
        time := fileAction (timeRules s.period s.now) (State.newAction slot due (s.entry i).template) s.asc.time } ∧
      t.entry i = { s.entry i with lastSeen := some seq } ∧ (∀ j, j ≠ i → t.entry j = s.entry j) ∧
      t.sbs.sourceMap = s.sbs.sourceMap ∧ t.sbs.templates = s.sbs.templates ∧
      t.fru = s.accepted.fru ∧ t.lpi = s.accepted.lpi ∧ t.ltu = s.ltu ∧ t.dcu = s.dcu ∧ t.tvu = s.tvu ∧
      t.llu = s.llu ∧ t.mku = s.mku ∧ t.srh = s.srh ∧ t.cfl = s.cfl

/-- R56: the rebuilt capture cycle has the carried low 16 bits and lies from 32,768 cycles before the receiver's own to
32,767 after it, which makes it the nearest such cycle, the earlier of two as near; a received mark is processed at the
instant of that cycle and the carried phase. -/
def Obligations.RebuiltCycleIsNearest : Prop :=
  (∀ (own : Word) (carried : Half),
    (rebuildCycle own carried).setWidth 16 = carried ∧
      -32768 ≤ (rebuildCycle own carried - own).toInt ∧ (rebuildCycle own carried - own).toInt ≤ 32767) ∧
  (∀ (s : State) (source : Address) (channel : Fin 8) (seq : Byte) (cycleLow phase : Half),
    s.locked = true → phase.toNat < s.period →
    let capture : Instant := { cycle := rebuildCycle s.now.cycle cycleLow, phase := phase.toNat }
    s.receiveMark source channel seq cycleLow phase =
      s.processMark source channel seq capture fun u => u.positionAt capture)

/-- R35, R36, R172, R177: an accepted RETIME for a valid entry sets its shadow delay, replacing one already there, and
changes nothing else; for an entry number of 64 and above, or an entry not valid, it is refused. -/
def Obligations.RetimeSetsTheShadow : Prop :=
  ∀ (s : State) (source : Address) (target : Byte) (tag : Half) (entry : Byte) (delay : BitVec 24),
    s.Heeds (.retime source target tag entry delay) → s.running = true → source ≠ s.cfl.address →
    s.addressed target = true → tagAccepted s.srh.lineTag tag = true →
    (∀ h : entry.toNat < 64, (s.entry ⟨entry.toNat, h⟩).valid = true →
      ∃ t, exec (.retime source target tag entry delay) s = .next t ∧
        t.entry ⟨entry.toNat, h⟩ = { s.entry ⟨entry.toNat, h⟩ with shadow := some delay } ∧
        (∀ j, j ≠ ⟨entry.toNat, h⟩ → t.entry j = s.entry j) ∧
        t.sbs.sourceMap = s.sbs.sourceMap ∧ t.sbs.templates = s.sbs.templates ∧
        t.fru = s.accepted.fru ∧ t.lpi = s.accepted.lpi ∧ t.ltu = s.ltu ∧ t.asc = s.asc ∧ t.dcu = s.dcu ∧
        t.tvu = s.tvu ∧ t.llu = s.llu ∧ t.mku = s.mku ∧ t.srh = s.srh ∧ t.cfl = s.cfl) ∧
    ((∀ h : entry.toNat < 64, (s.entry ⟨entry.toNat, h⟩).valid = false) →
      exec (.retime source target tag entry delay) s = .next s.accepted.refuseRequest)

/-! ### Actions, claims and travel -/

/-- R67: in a schedule that stands in the order of its due points, filing puts an action behind every action whose due
point is at or before its own and ahead of every other, and the schedule stays in order (the order of due points: any
total one, which R68 and R69 give where no distance wraps). R69: the wrap case: a backward count change that brings the
distance ahead of the tail to -2^31 moves the tail to the head. R67 to R69: each schedule stays in order: from a sound
state in which both stand in order, every step leaves them so. Its premises rule out states far from any run: a record
or a history entry half the number range away, or two actions at the wrap of the travel position at once. -/
def Obligations.FilingGoesBehindEquals : Prop :=
  (∀ (δ : Type) (r : DomainRules δ) (a : Action δ) (l : List (Action δ)),
    (∀ x y : δ, r.atOrBefore x y = true ∨ r.atOrBefore y x = true) →
    (∀ x y z : δ, r.atOrBefore x y = true → r.atOrBefore y z = true → r.atOrBefore x z = true) →
    l.Pairwise (fun x y => r.atOrBefore x.due y.due = true) →
    (fileAction r a l).Pairwise (fun x y => r.atOrBefore x.due y.due = true) ∧
    ∃ front back, l = front ++ back ∧ fileAction r a l = front ++ a :: back ∧
      (∀ x ∈ front, r.atOrBefore x.due a.due = true) ∧ (∀ y ∈ back, r.atOrBefore y.due a.due = false)) ∧
  (∀ (s : State) (front : List (Action Word)) (a : Action Word), s.asc.travel = front ++ [a] →
    let moved := if s.travelAhead a = 2147483647 then a :: front else s.asc.travel
    s.countChange .backward = State.travelPass { s with
      tvu := { s.tvu with position := s.tvu.position - 1#32 }, asc := { s.asc with travel := moved } }) ∧
  (∀ s t : State, s.TimeSound → s.ActionsSound → s.TimeInOrder → s.TravelInOrder → s.OneNearWrap → s.NearPresent →
    step s = .next t → t.TimeInOrder ∧ t.TravelInOrder)

/-- R76: a pass of either domain is its turns: while the head is due it fires the head's step, with its schedule empty
or its head not due it does nothing more, and so it ends with its schedule empty or its head not due. -/
def Obligations.PassEndsWithNoHeadDue : Prop :=
  ∀ (δ : Type) (r : DomainRules δ) (templates : Table Template 16) (p : Pool δ),
    (∀ a rest, p.schedule = a :: rest → r.isDue a.due = true →
      p.pass r templates = (fireHead r templates a rest p).pass r templates) ∧
    (∀ a rest, p.schedule = a :: rest → r.isDue a.due = false → p.pass r templates = p) ∧
    (p.schedule = [] → p.pass r templates = p) ∧
    (∀ a rest, (p.pass r templates).schedule = a :: rest → r.isDue a.due = false)

/-- R77 to R79, R92, R96: one turn of a pass fires the head's step: the claim count of the step's line moves by one,
with the countdown that goes with it, the last step retires the action with its slot on top of the free stack, and any
other re-files it at its old due point plus the gap, with the next step and the step's line in or out of its held set. -/
def Obligations.TurnFiresOneStep : Prop :=
  ∀ (δ : Type) (r : DomainRules δ) (templates : Table Template 16) (a : Action δ) (rest : List (Action δ))
    (p : Pool δ),
    let t := templates.get a.template
    let step := t.steps.get a.next
    (a.next.val + 1 = t.count → (fireHead r templates a rest p).schedule = rest ∧
      (fireHead r templates a rest p).free = a.slot :: p.free) ∧
    (a.next.val + 1 < t.count → a.next.val < 3 → ∃ b : Action δ,
      (fireHead r templates a rest p).schedule = fileAction r b rest ∧
      (fireHead r templates a rest p).free = p.free ∧
      b.slot = a.slot ∧ b.template = a.template ∧ b.due = r.addGap a.due step.gap.toNat ∧
      b.next.val = a.next.val + 1 ∧
      (∀ n, b.held.get n = (if n = step.line ∧ step.op = .assert then true
        else if n = step.line ∧ step.op = .release then false else a.held.get n))) ∧
    (∀ n, n ≠ step.line → (fireHead r templates a rest p).dcu.lines.get n = p.dcu.lines.get n) ∧
    (step.op = .assert →
      ((fireHead r templates a rest p).dcu.lines.get step.line).claim = (p.dcu.lines.get step.line).claim + 1 ∧
      (fireHead r templates a rest p).dcu.lines.get step.line = (p.dcu.lines.get step.line).addClaim) ∧
    (step.op = .release →
      ((fireHead r templates a rest p).dcu.lines.get step.line).claim = (p.dcu.lines.get step.line).claim - 1 ∧
      (fireHead r templates a rest p).dcu.lines.get step.line = (p.dcu.lines.get step.line).dropClaim) ∧
    (step.op = .noOp → (fireHead r templates a rest p).dcu = p.dcu)

/-- R70, R71, R73: a request whose lateness exceeds the late limit of its domain is missed, whatever the free stack
holds; one that is not, with a slot free, takes the slot at the top and is filed with its next step 0 and nothing held;
a late one counts as a late fire and a pass follows that leaves no head due, any other waits. -/
def Obligations.AdmissionOutcomes : Prop :=
  ∀ (s : State) (template : Fin 16),
    (∀ due : Instant, (s.timeLateLimit : Int) < Instant.distance s.period due s.now →
      s.admitTime due template = (s.setFlag .missed).count .missed) ∧
    (∀ due : Word, (s.travelLateLimit : Int) < signedDifference s.tvu.position due →
      s.admitTravel due template = (s.setFlag .missed).count .missed) ∧
    (∀ (due : Instant) (slot : Fin 48) (free : List (Fin 48)), s.asc.free = slot :: free →
      let late := Instant.distance s.period due s.now
      let behind := fileAction (timeRules s.period s.now) (State.newAction slot due template) s.asc.time
      let filed : State := { s with asc := { s.asc with free := free, time := behind } }
      late ≤ s.timeLateLimit →
      (late ≤ 0 → s.admitTime due template = filed) ∧
      (0 < late → (s.admitTime due template).fru = (s.count .lateFires).fru ∧
        (s.admitTime due template).NoTimeHeadDue ∧
        s.admitTime due template = (filed.count .lateFires).timePass)) ∧
    (∀ (due : Word) (slot : Fin 48) (free : List (Fin 48)), s.asc.free = slot :: free →
      let late := signedDifference s.tvu.position due
      let behind := fileAction (travelRules s.tvu.position) (State.newAction slot due template) s.asc.travel
      let filed : State := { s with asc := { s.asc with free := free, travel := behind } }
      late ≤ s.travelLateLimit →
      (late ≤ 0 → s.admitTravel due template = filed) ∧
      (0 < late → (s.admitTravel due template).fru = (s.count .lateFires).fru ∧
        (s.admitTravel due template).NoTravelHeadDue ∧
        s.admitTravel due template = (filed.count .lateFires).travelPass))

/-- R72: a request that is not missed, made while the free stack is empty, is refused for want of a slot; neither
schedule changes. -/
def Obligations.NoSlotRefusesTheRequest : Prop :=
  ∀ (s : State) (template : Fin 16), s.asc.free = [] →
    (∀ due : Instant, Instant.distance s.period due s.now ≤ s.timeLateLimit →
      s.admitTime due template = (s.setFlag .poolExhausted).count .poolRefusals ∧
      (s.admitTime due template).asc = s.asc) ∧
    (∀ due : Word, signedDifference s.tvu.position due ≤ s.travelLateLimit →
      s.admitTravel due template = (s.setFlag .poolExhausted).count .poolRefusals ∧
      (s.admitTravel due template).asc = s.asc)

/-- R97, R83, R81, R92, R93: at the expiry of a countdown DRIVE_TIMEOUT is set and every action that holds the line is
gone, its slot on top of the free stack in the order of cancellation; every other line gives back the claims that those
actions held on it, and its countdown stops when its count falls to 0 and else runs on from where it stood; from a sound
state the line is then unclaimed and its demand inactive. That the command comes once in a tick (the mark `counted`) is
the model's (log 14). -/
def Obligations.OnTimeExpiryReleasesTheLine : Prop :=
  ∀ (s : State) (n : LineId), s.running = true → (s.drive n).counted = false → (s.drive n).countdown = some 1 →
    let held {δ : Type} (l : List (Action δ)) : List (Action δ) := l.filter fun a => a.held.get n
    let kept {δ : Type} (l : List (Action δ)) : List (Action δ) := l.filter fun a => !a.held.get n
    ∃ t, exec (.onTimeExpiry n) s = .next t ∧
      t.fru = { s.fru with events := { s.fru.events with driveTimeout := true } } ∧
      t.asc.time = kept s.asc.time ∧ t.asc.travel = kept s.asc.travel ∧
      t.asc.free = ((held s.asc.travel).map Action.slot).reverse ++
        (((held s.asc.time).map Action.slot).reverse ++ s.asc.free) ∧
      t.asc.limits = s.asc.limits ∧
      (∀ m, (t.drive m).limit = (s.drive m).limit ∧
        (t.drive m).claim = (s.drive m).claim - holders m (held s.asc.time) - holders m (held s.asc.travel)) ∧
      (∀ m, m ≠ n →
        (holders m (held s.asc.time) = 0 → holders m (held s.asc.travel) = 0 → t.drive m = s.drive m) ∧
        (0 < (t.drive m).claim → (t.drive m).demand = .active ∧ (t.drive m).countdown = (s.drive m).countdown) ∧
        (0 < (s.drive m).claim → (t.drive m).claim = 0 →
          (t.drive m).demand = .inactive ∧ (t.drive m).countdown = none)) ∧
      (s.ClaimsSound → (t.drive n).claim = 0 ∧ (t.drive n).demand = .inactive ∧ (t.drive n).countdown = none) ∧
      t.ltu = s.ltu ∧ t.sbs = s.sbs ∧ t.mku = s.mku ∧ t.tvu = s.tvu ∧ t.llu = s.llu ∧ t.lpi = s.lpi ∧
      t.srh = s.srh ∧ t.cfl = s.cfl

/-- R96: a claim on an unclaimed line with a limit starts its countdown at the limit times 16 local ticks; a further
claim does not start it again, and the release of the last claim stops it. -/
def Obligations.CountdownFollowsTheDemand : Prop :=
  ∀ d : DriveLine,
    (d.claim = 0 → d.limit ≠ 0 → d.addClaim.countdown = some (16 * d.limit)) ∧
    (d.claim = 0 → d.limit = 0 → d.addClaim.countdown = d.countdown) ∧
    (0 < d.claim → d.addClaim.countdown = d.countdown) ∧
    (d.claim = 1 → d.dropClaim.countdown = none) ∧ (1 < d.claim → d.dropClaim.countdown = d.countdown) ∧
    (d.demand = .active ↔ 0 < d.claim)

/-- R107, R106, R75: the accepted edges of the encoder lines, by travel mode, kind of edge and level of the other
phase; a count change moves the position by one and takes the pass of the travel schedule at the new position, a
backward one behind the tail test of R69, and an edge that does not count moves the filtered level alone. The mark
`sampled` is the model's (log 14). -/
def Obligations.EncoderEdgesCount : Prop :=
  ∀ (s : State) (n : LineId) (r : FilterRecord),
    s.running = true → s.functionOf n = .enc → (s.line n).record = some r →
    r.remaining ≤ 1 → (s.line n).sampled = false →
    ∃ t, exec (.edgeAccept n) s = .next t ∧
      t.line n = { s.line n with filtered := r.pending, record := none, sampled := true } ∧
      (∀ m, m ≠ n → t.line m = s.line m) ∧
      (s.tvu.mode = .pulse → n = 6 → r.pending = .active →
        s.CountTaken t .forward ∧ t.NoTravelHeadDue) ∧
      (s.tvu.mode = .quad → n = 6 → t.NoTravelHeadDue ∧
        (r.pending ≠ (s.line 7).filtered → s.CountTaken t .forward) ∧
        (r.pending = (s.line 7).filtered → s.CountTaken t .backward)) ∧
      (s.tvu.mode = .quad → n = 7 → t.NoTravelHeadDue ∧
        (r.pending = (s.line 6).filtered → s.CountTaken t .forward) ∧
        (r.pending ≠ (s.line 6).filtered → s.CountTaken t .backward)) ∧
      (s.tvu.mode = .none ∨ (s.tvu.mode = .pulse ∧ (n ≠ 6 ∨ r.pending = .inactive)) ∨ (n ≠ 6 ∧ n ≠ 7) →
        t.tvu = s.tvu ∧ t.asc = s.asc ∧ t.dcu = s.dcu) ∧
      t.tvu.history = s.tvu.history ∧ t.tvu.mode = s.tvu.mode ∧ t.asc.time = s.asc.time ∧
      t.asc.limits = s.asc.limits ∧ t.ltu = s.ltu ∧ t.sbs = s.sbs ∧ t.mku = s.mku ∧ t.fru = s.fru ∧
      t.lpi = s.lpi ∧ t.srh = s.srh ∧ t.cfl = s.cfl

/-- R115, R86, R120, R124, R128: the accepted edge of a selected kind on a ZERO line: the position becomes 0, every
stored position is reduced by the old one, and no distance to the position changes; an edge of a kind not selected
moves the filtered level alone. The mark `sampled` is the model's (log 14). -/
def Obligations.ZeroEdgeKeepsDistances : Prop :=
  ∀ (s : State) (n : LineId) (r : FilterRecord),
    s.running = true → s.functionOf n = .zero → (s.line n).record = some r →
    r.remaining ≤ 1 → (s.line n).sampled = false →
    let x := s.tvu.position
    ∃ t, exec (.edgeAccept n) s = .next t ∧
      t.line n = { s.line n with filtered := r.pending, record := none, sampled := true } ∧
      (¬(s.line n).settings.edges.Picks r.pending →
        (∀ m, m ≠ n → t.line m = s.line m) ∧ t.tvu = s.tvu ∧ t.asc = s.asc) ∧
      ((s.line n).settings.edges.Picks r.pending →
        (∀ m, m ≠ n → t.line m = (s.line m).rebaseRecord x) ∧
        t.tvu = { s.tvu with position := 0#32, history := s.tvu.history.map (HistoryEntry.rebase x) } ∧
        t.asc = { s.asc with travel := s.asc.travel.map fun a => { a with due := a.due - x } } ∧
        t.asc.travel.map (fun a => signedDifference a.due t.tvu.position) =
          s.asc.travel.map (fun a => signedDifference a.due x) ∧
        t.tvu.history.map (fun e => signedDifference e.position t.tvu.position) =
          s.tvu.history.map (fun e => signedDifference e.position x)) ∧
      t.ltu = s.ltu ∧ t.sbs = s.sbs ∧ t.mku = s.mku ∧ t.dcu = s.dcu ∧ t.fru = s.fru ∧ t.lpi = s.lpi ∧
      t.srh = s.srh ∧ t.cfl = s.cfl

/-- R112: the travel position at a capture instant: the present one at or after the present instant, too old before the
history, and else interpolated: within the present cycle from its entry to the present position, or across an earlier
cycle from its entry to the next. R113: the interpolated position is the first end plus the share of the signed
difference, truncated toward zero, and lies between the two ends, on the side of the first. -/
def Obligations.InterpolationLiesBetween : Prop :=
  (∀ (s : State) (i : Instant),
    let ahead := (i.cycle - s.now.cycle).toInt
    (0 < ahead ∨ (i.cycle = s.now.cycle ∧ s.now.phase ≤ i.phase) → s.positionAt i = some s.tvu.position) ∧
    (ahead < 0 ∨ (i.cycle = s.now.cycle ∧ i.phase < s.now.phase) →
      (s.tvu.history = [] → s.positionAt i = none) ∧
      (∀ e, s.tvu.history.head? = some e → (i.cycle - e.cycle).toInt < 0 → s.positionAt i = none)) ∧
    (s.locked = true → s.HistorySound → ∀ e ∈ s.tvu.history, e.cycle = i.cycle →
      (i.cycle = s.now.cycle → i.phase < s.now.phase →
        s.positionAt i = some (interpolate e.position s.tvu.position i.phase s.now.phase)) ∧
      (ahead < 0 → ∀ f ∈ s.tvu.history, f.cycle = i.cycle + 1#32 →
        s.positionAt i = some (interpolate e.position f.position i.phase s.period)))) ∧
  (∀ (a b : Word) (num den : Nat), num < den →
    let d := signedDifference b a
    (0 ≤ d → interpolate a b num den = a + BitVec.ofInt 32 (d * num / den) ∧
      0 ≤ signedDifference (interpolate a b num den) a ∧ signedDifference (interpolate a b num den) a ≤ d) ∧
    (d ≤ 0 → interpolate a b num den = a - BitVec.ofInt 32 (-d * num / den) ∧
      d ≤ signedDifference (interpolate a b num den) a ∧ signedDifference (interpolate a b num den) a ≤ 0))

/-! ### Local lines -/

/-- R121, R134: a first sight on a line with a filter width makes the record, and nothing else of the line or of the
station changes; a SENSE line's holds the line instant in LOCKED, none in LISTEN, and the travel position, as they
stand at the event, on either side of its tick's advance (what that leaves of R51 and R46: logs 36 and 37). R122: a
first sight on a line of filter width 0 is accepted in the same event, whatever the line's function: it does what the
acceptance of such a record does (counts, rebases and captures are stated beside it). The mark `sampled` is the model's
(log 14). -/
def Obligations.FirstSightRecordsOrAccepts : Prop :=
  ∀ (s : State) (n : LineId), s.running = true → (s.functionOf n).sampled = true → (s.line n).record = none →
    (s.line n).sampled = false →
    ∃ r : FilterRecord, r.pending ≠ (s.line n).filtered ∧ r.remaining = (s.line n).settings.filterWidth ∧
      (s.functionOf n = .sense → s.ltu.sync = .locked →
        r.stamp = some { instant := some s.now, position := s.tvu.position }) ∧
      (s.functionOf n = .sense → s.ltu.sync = .listen →
        r.stamp = some { instant := none, position := s.tvu.position }) ∧
      (s.functionOf n ≠ .sense → r.stamp = none) ∧
      (0 < (s.line n).settings.filterWidth → ∃ t, exec (.firstSight n) s = .next t ∧
        t.line n = { s.line n with record := some r, sampled := true } ∧ (∀ m, m ≠ n → t.line m = s.line m) ∧
        t.ltu = s.ltu ∧ t.sbs = s.sbs ∧ t.mku = s.mku ∧ t.asc = s.asc ∧ t.dcu = s.dcu ∧ t.tvu = s.tvu ∧
        t.fru = s.fru ∧ t.lpi = s.lpi ∧ t.srh = s.srh ∧ t.cfl = s.cfl) ∧
      ((s.line n).settings.filterWidth = 0 →
        exec (.firstSight n) s = exec (.edgeAccept n) (s.mapLine n fun l => { l with record := some r }) ∧
        ∃ t, exec (.firstSight n) s = .next t ∧ (t.line n).filtered = r.pending ∧ (t.line n).record = none ∧
          (t.line n).sampled = true ∧ (t.line n).settings = (s.line n).settings ∧
          (t.line n).presented = (s.line n).presented ∧ (t.line n).pulse = (s.line n).pulse ∧
          (t.line n).mismatchTimer = (s.line n).mismatchTimer ∧ (t.line n).mismatch = (s.line n).mismatch ∧
          t.ltu = s.ltu ∧ t.lpi = s.lpi ∧ t.srh = s.srh ∧ t.cfl = s.cfl)

/-- R122: a reversion removes the record and leaves no other trace. R120, R123: an accepted SENSE edge that is not of a
selected kind, falls in dead time, or carries no instant changes the filtered level alone. The mark `sampled` is the
model's (log 14). -/
def Obligations.NoTraceWithoutCapture : Prop :=
  (∀ (s : State) (n : LineId), s.running = true → (s.line n).record ≠ none → (s.line n).sampled = false →
    ∃ t, exec (.filterReversion n) s = .next t ∧
      t.line n = { s.line n with record := none, sampled := true } ∧ (∀ m, m ≠ n → t.line m = s.line m) ∧
      t.ltu = s.ltu ∧ t.sbs = s.sbs ∧ t.mku = s.mku ∧ t.asc = s.asc ∧ t.dcu = s.dcu ∧ t.tvu = s.tvu ∧
      t.fru = s.fru ∧ t.lpi = s.lpi ∧ t.srh = s.srh ∧ t.cfl = s.cfl) ∧
  (∀ (s : State) (n : LineId) (r : FilterRecord),
    s.running = true → s.functionOf n = .sense → (s.line n).record = some r →
    r.remaining ≤ 1 → (s.line n).sampled = false →
    (¬(s.line n).settings.edges.Picks r.pending ∨ 0 < (s.line n).deadTime ∨
      (∀ st, r.stamp = some st → st.instant = none)) →
    ∃ t, exec (.edgeAccept n) s = .next t ∧
      t.line n = { s.line n with filtered := r.pending, record := none, sampled := true } ∧
      (∀ m, m ≠ n → t.line m = s.line m) ∧
      t.ltu = s.ltu ∧ t.sbs = s.sbs ∧ t.mku = s.mku ∧ t.asc = s.asc ∧ t.dcu = s.dcu ∧ t.tvu = s.tvu ∧
      t.fru = s.fru ∧ t.lpi = s.lpi ∧ t.srh = s.srh ∧ t.cfl = s.cfl)

/-- R120, R123, R126, R43, R44, R45, R48, R127: an accepted SENSE edge of a selected kind, outside dead time and with an
instant, makes a capture. Dead time starts. With a route flag set the capture takes its channel's number and the
counter moves on. The local route processes it as a mark of the station's own address, at the capture's own instant and
with the position of its stamp; the publish route appends it to the mark-out queue, or drops it as an overrun when
sixteen stand there. The marks `sampled` and `deadCounted` are the model's (log 14). -/
def Obligations.CaptureTakesItsRoutes : Prop :=
  ∀ (s : State) (n : LineId) (r : FilterRecord) (i : Instant) (p : Word),
    s.running = true → s.functionOf n = .sense → (s.line n).record = some r →
    r.remaining ≤ 1 → (s.line n).sampled = false →
    (s.line n).settings.edges.Picks r.pending → (s.line n).deadTime = 0 →
    r.stamp = some { instant := some i, position := p } →
    let c := (s.line n).settings.channel
    let seq := s.mku.counters.get c
    ∃ t, exec (.edgeAccept n) s = .next t ∧
      t.line n = { s.line n with filtered := r.pending, record := none, sampled := true,
                                 deadTime := (s.line n).settings.deadTime, deadCounted := true } ∧
      (∀ m, m ≠ n → t.line m = s.line m) ∧
      ((s.line n).settings.publish = false → (s.line n).settings.localRoute = false →
        t.mku = s.mku ∧ t.sbs = s.sbs ∧ t.asc = s.asc ∧ t.dcu = s.dcu ∧ t.fru = s.fru) ∧
      ((s.line n).settings.publish = true ∨ (s.line n).settings.localRoute = true →
        t.mku.counters = s.mku.counters.set c (seq + 1#8)) ∧
      ((s.line n).settings.publish = false → t.mku.queue = s.mku.queue) ∧
      ((s.line n).settings.publish = true → s.mku.queue.length < 16 →
        t.mku.queue = s.mku.queue ++ [{ channel := c, sequence := seq, instant := i }]) ∧
      ((s.line n).settings.publish = true → 16 ≤ s.mku.queue.length → t.mku.queue = s.mku.queue ∧
        t.fru.events.markOutOverrun = true) ∧
      ((s.line n).settings.localRoute = false →
        t.sbs = s.sbs ∧ t.asc = s.asc ∧ t.dcu = s.dcu ∧
        ((s.line n).settings.publish = true → t.fru = if s.mku.queue.length < 16 then s.fru else
          ((s.setFlag .markOutOverrun).count .markOutDrops).fru)) ∧
      ((s.line n).settings.localRoute = true →
        let s1 : State := { s with llu := t.llu, mku := { s.mku with counters := t.mku.counters } }
        let u := s1.processMark s.cfl.address c seq i fun _ => some p
        t.sbs = u.sbs ∧ t.asc = u.asc ∧ t.dcu = u.dcu ∧
        ((s.line n).settings.publish = false ∨ s.mku.queue.length < 16 → t.fru = u.fru) ∧
        ((s.line n).settings.publish = true → 16 ≤ s.mku.queue.length →
          t.fru = ((u.setFlag .markOutOverrun).count .markOutDrops).fru)) ∧
      t.ltu = s.ltu ∧ t.tvu = s.tvu ∧ t.lpi = s.lpi ∧ t.srh = s.srh ∧ t.cfl = s.cfl

/-- R127, R131: the ends of a dead time and of a cycle pulse bring that remainder to 0 and change nothing else. R135:
in the tick that sets a remainder neither comes, so a boundary taken first keeps a CYCLE_OUT line ACTIVE. The marks
`deadCounted` and `pulseCounted`, which say that the tick has had its count, are the model's (log 14). -/
def Obligations.LineTimersRunOut : Prop :=
  ∀ (s : State) (n : LineId), s.running = true →
    ((s.line n).deadTime = 1 → (s.line n).deadCounted = false → ∃ t, exec (.deadTimeExpiry n) s = .next t ∧
      t.line n = { s.line n with deadTime := 0, deadCounted := true } ∧ (∀ m, m ≠ n → t.line m = s.line m) ∧
      t.ltu = s.ltu ∧ t.sbs = s.sbs ∧ t.mku = s.mku ∧ t.asc = s.asc ∧ t.dcu = s.dcu ∧ t.tvu = s.tvu ∧
      t.fru = s.fru ∧ t.lpi = s.lpi ∧ t.srh = s.srh ∧ t.cfl = s.cfl) ∧
    ((s.line n).pulse = 1 → (s.line n).pulseCounted = false → ∃ t, exec (.pulseEnd n) s = .next t ∧
      t.line n = { s.line n with pulse := 0, pulseCounted := true } ∧ (∀ m, m ≠ n → t.line m = s.line m) ∧
      t.ltu = s.ltu ∧ t.sbs = s.sbs ∧ t.mku = s.mku ∧ t.asc = s.asc ∧ t.dcu = s.dcu ∧ t.tvu = s.tvu ∧
      t.fru = s.fru ∧ t.lpi = s.lpi ∧ t.srh = s.srh ∧ t.cfl = s.cfl) ∧
    ((s.line n).deadCounted = true → exec (.deadTimeExpiry n) s = .next s) ∧
    ((s.line n).pulseCounted = true → exec (.pulseEnd n) s = .next s)

/-- R132: the read-back of a driven DRIVE line, by its table: a disagreement counts in the timer and leaves the
indicator as it was up to the 63rd; the 64th and every further one hold the timer at 64, set the indicator and set
DRIVE_MISMATCH; an agreement ends the run and clears the indicator but not the flag; no claim, demand or countdown
changes. The marks `compared` (log 14) and the picture `pinHeld` of the pin (log 15) are the model's. -/
def Obligations.ReadBackSetsAndClears : Prop :=
  ∀ (s : State) (n : LineId) (level : Level),
    s.running = true → s.functionOf n = .drive → (s.line n).presented = some level →
    (s.line n).compared = false →
    (∃ t, exec (.mismatchDetected n) s = .next t ∧
      ((s.line n).mismatchTimer < 63 →
        t.line n = { s.line n with mismatchTimer := (s.line n).mismatchTimer + 1, compared := true,
                                   pinHeld := some level.other } ∧ t.fru = s.fru) ∧
      (63 ≤ (s.line n).mismatchTimer →
        t.line n = { s.line n with mismatchTimer := 64, mismatch := true, compared := true,
                                   pinHeld := some level.other } ∧
        t.fru = { s.fru with events := { s.fru.events with driveMismatch := true } }) ∧
      (∀ m, m ≠ n → t.line m = s.line m) ∧ t.ltu = s.ltu ∧ t.sbs = s.sbs ∧ t.mku = s.mku ∧ t.asc = s.asc ∧
      t.dcu = s.dcu ∧ t.tvu = s.tvu ∧ t.lpi = s.lpi ∧ t.srh = s.srh ∧ t.cfl = s.cfl) ∧
    (∃ t, exec (.readBackAgreement n) s = .next t ∧
      t.line n = { s.line n with mismatchTimer := 0, mismatch := false, compared := true, pinHeld := none } ∧
      t.fru = s.fru ∧
      (∀ m, m ≠ n → t.line m = s.line m) ∧ t.ltu = s.ltu ∧ t.sbs = s.sbs ∧ t.mku = s.mku ∧ t.asc = s.asc ∧
      t.dcu = s.dcu ∧ t.tvu = s.tvu ∧ t.lpi = s.lpi ∧ t.srh = s.srh ∧ t.cfl = s.cfl)

/-! ### The line pair -/

/-- R136, R141, R142, R150, R155, R190, R12, R49, R168: at an idle line an ACTIVE station with an offered beacon sends
it before anything else: the frame names the present cycle, phase and period and the slot becomes SENDING. With no
beacon offered the head of the mark-out queue goes, with its own fields and its place kept; with neither, a waiting
report, latched now and SENDING. A REPORT_ONLY station sends a waiting report whatever else is offered, and nothing
when none waits; a SILENT or MUTED one sends nothing. A choice that finds no candidate begins no attempt, and none
begins before the next tick, whatever is offered in the same one. While the station sends, LTX shows its frame bit by
bit, each field most significant bit first, a dominant bit low, and both end-slot bits recessive. The mark `chosen` is
the model's (log 14). -/
def Obligations.CandidatesGoInOrder : Prop :=
  (∀ (s : State) (run : Nat), s.lpi.transmission = none → s.lpi.decoder = .outside run → 3 ≤ run →
    s.lpi.chosen = false → s.lpi.state = .active → s.ltu.slot = .offered →
    ∃ t f, exec .transmitStart s = .next t ∧
      t.lpi = { s.lpi with transmission := some { candidate := .beacon, frame := f, bit := 0 },
                           decoder := .inside 0 true, chosen := true } ∧
      f.cls = 0#3 ∧ f.source = s.cfl.address ∧ f.payload = bytes32 s.now.cycle ++
        (bytes16 (BitVec.ofNat 16 s.now.phase) ++ bytes16 (BitVec.ofNat 16 s.period)) ∧ f.malformed = false ∧
      t.ltu = { s.ltu with slot := .sending } ∧
      t.sbs = s.sbs ∧ t.mku = s.mku ∧ t.asc = s.asc ∧ t.dcu = s.dcu ∧ t.tvu = s.tvu ∧ t.llu = s.llu ∧
      t.fru = s.fru ∧ t.srh = s.srh ∧ t.cfl = s.cfl) ∧
  (∀ (s : State) (run : Nat) (q : QueuedMark) (rest : List QueuedMark),
    s.lpi.transmission = none → s.lpi.decoder = .outside run → 3 ≤ run →
    s.lpi.chosen = false → s.lpi.state = .active → s.ltu.slot ≠ .offered → s.mku.queue = q :: rest →
    ∃ t f, exec .transmitStart s = .next t ∧
      t.lpi = { s.lpi with transmission := some { candidate := .mark, frame := f, bit := 0 },
                           decoder := .inside 0 true, chosen := true } ∧
      f.cls = 2#3 ∧ f.source = s.cfl.address ∧ f.payload = BitVec.ofNat 8 q.channel.val :: q.sequence ::
        (bytes16 (q.instant.cycle.setWidth 16) ++ bytes16 (BitVec.ofNat 16 q.instant.phase)) ∧ f.malformed = false ∧
      t.ltu = s.ltu ∧ t.sbs = s.sbs ∧ t.mku = s.mku ∧ t.asc = s.asc ∧ t.dcu = s.dcu ∧ t.tvu = s.tvu ∧
      t.llu = s.llu ∧ t.fru = s.fru ∧ t.srh = s.srh ∧ t.cfl = s.cfl) ∧
  (∀ (s : State) (run : Nat) (p : Fin 8), s.lpi.transmission = none → s.lpi.decoder = .outside run → 3 ≤ run →
    s.lpi.chosen = false →
    ((s.lpi.state = .active ∧ s.ltu.slot ≠ .offered ∧ s.mku.queue = []) ∨ s.lpi.state = .reportOnly) →
    s.fru.reportSlot = .waiting p →
    ∃ t f, exec .transmitStart s = .next t ∧
      t.lpi = { s.lpi with transmission := some { candidate := .report, frame := f, bit := 0 },
                           decoder := .inside 0 true, chosen := true } ∧
      f.cls = 5#3 ∧ f.source = s.cfl.address ∧ f.payload = s.reportPayload p ∧ f.payload.length = 12 ∧
      f.malformed = false ∧ t.fru = { s.fru with reportSlot := .sending p } ∧
      t.ltu = s.ltu ∧ t.sbs = s.sbs ∧ t.mku = s.mku ∧ t.asc = s.asc ∧ t.dcu = s.dcu ∧ t.tvu = s.tvu ∧
      t.llu = s.llu ∧ t.srh = s.srh ∧ t.cfl = s.cfl) ∧
  (∀ (s : State) (run : Nat), s.lpi.transmission = none → s.lpi.decoder = .outside run → 3 ≤ run →
    s.lpi.chosen = false →
    (s.lpi.state = .muted ∨ (s.lpi.state = .reportOnly ∧ ∀ p, s.fru.reportSlot ≠ .waiting p) ∨
      (s.lpi.state = .active ∧ s.ltu.slot ≠ .offered ∧ s.mku.queue = [] ∧ ∀ p, s.fru.reportSlot ≠ .waiting p)) →
    exec .transmitStart s = .next { s with lpi := { s.lpi with chosen := true } }) ∧
  (∀ s : State, s.pending = [] → (s.running = true ∧ s.ltu.ticked = true ∨ s.cfl.run = .halted) →
    s.lpi.transmission = none → s.lpi.chosen = true →
    ∃ t, step s = .next t ∧ t.lpi.transmission = none ∧ t.lpi.chosen = false ∧ t.ltu.slot = s.ltu.slot) ∧
  (∀ s : State, (s.lpi.state = .silent ∨ s.lpi.transmission ≠ none ∨ s.lpi.chosen = true ∨
      ∀ run, s.lpi.decoder = .outside run → run < 3) → exec .transmitStart s = .next s) ∧
  (∀ (s : State) (x : Transmission) (received : Option WireFrame), s.lpi.transmission = some x →
    let f := x.frame
    let level := s.ltx received
    let last := 13 + 8 * f.payload.length
    (x.bit = 0 → level = false) ∧
    (∀ i < 3, x.bit = 1 + i → level = f.cls.getMsbD i) ∧
    (∀ i < 5, x.bit = 4 + i → level = f.source.getMsbD i) ∧
    (∀ i < 4, x.bit = 9 + i → level = f.length.getMsbD i) ∧
    (∀ j < f.payload.length, ∀ i < 8, x.bit = 13 + 8 * j + i → level = (byteAt f.payload j).getMsbD i) ∧
    (∀ i < 16, x.bit = last + i → level = f.check.getMsbD i) ∧
    (last + 16 ≤ x.bit → level = true))

/-- R143, R11, R167: arbitration is lost at a bit of the arbitration field that the station sends recessive, and at no
other. It stops driving the line, leaves the decoder within the frame that beat the station's own, at the bit it has
read up to, and returns the candidate as offered: the beacon to OFFERED, the mark in its place, the report to WAITING
with the held page if there is one; no flag, no count, and the fault count stands. -/
def Obligations.LostArbitrationReturnsTheCandidate : Prop :=
  ∀ (s : State) (x : Transmission), s.lpi.transmission = some x →
    (9 ≤ x.bit ∨ s.ltx none = false → exec .arbitrationLost s = .next s) ∧
    (x.bit < 9 → s.ltx none = true → ∃ t, exec .arbitrationLost s = .next t ∧
      t.lpi = { s.lpi with transmission := none } ∧
      (∀ h, s.lpi.decoder = .inside x.bit h → ∀ received, t.ltx received = true) ∧
      (x.candidate = .beacon → t.ltu = { s.ltu with slot := .offered } ∧ t.fru = s.fru) ∧
      (x.candidate = .mark → t.ltu = s.ltu ∧ t.fru = s.fru) ∧
      (x.candidate = .report → ∀ q, s.fru.reportSlot = .sending q →
        t.ltu = s.ltu ∧
        t.fru = { s.fru with reportSlot := .waiting (s.fru.heldPage.getD q), heldPage := none }) ∧
      t.fru.events = s.fru.events ∧ t.fru.counters = s.fru.counters ∧ t.fru.mask = s.fru.mask ∧
      t.mku = s.mku ∧ t.sbs = s.sbs ∧ t.asc = s.asc ∧ t.dcu = s.dcu ∧ t.tvu = s.tvu ∧ t.llu = s.llu ∧
      t.srh = s.srh ∧ t.cfl = s.cfl)

/-- R143, R144, R146, R152, R167: a transmit fault, at any bit up to the acceptance bit but, in the arbitration field,
at one sent dominant alone, sets TX_FAULT and no other flag, counts in tx faults and in no other counter, returns the
candidate (the beacon to OFFERED, the mark in its place, the report to WAITING with the held page if there is one) and
raises the fault count; the eighth in ACTIVE mutes the station, and in REPORT_ONLY the count stays at 8. The decoder
stays within the frame that the line goes on to show; a fault at the acceptance bit leaves it in the end slot, two
ticks before its close (log 24). -/
def Obligations.TransmitFaultCountsAndMutes : Prop :=
  ∀ (s : State) (x : Transmission) (atAcceptance : Bool), s.lpi.transmission = some x → s.lpi.faultCount ≤ 8 →
    (x.bit < 9 → s.ltx none = true → exec (.transmitFault atAcceptance) s = .next s) ∧
    ((9 ≤ x.bit ∨ s.ltx none = false) →
    (atAcceptance = true ∧ x.bit = x.frame.ticks - 2 ∨ atAcceptance = false ∧ x.bit < x.frame.ticks - 2) →
    ∃ t, exec (.transmitFault atAcceptance) s = .next t ∧ t.lpi.transmission = none ∧
      t.fru.events = { s.fru.events with txFault := true } ∧
      t.fru.counters = { s.fru.counters with txFaults := min 65535 (s.fru.counters.txFaults + 1) } ∧
      t.fru.mask = s.fru.mask ∧
      t.lpi.faultCount = min 8 (s.lpi.faultCount + 1) ∧
      (s.lpi.state = .active → 7 ≤ s.lpi.faultCount →
        t.lpi.state = .muted ∧ t.lpi.acceptedRun = 0 ∧ t.lpi.quietCycles = 0 ∧ t.lpi.frameStart = false) ∧
      (s.lpi.state ≠ .active ∨ s.lpi.faultCount < 7 →
        t.lpi.state = s.lpi.state ∧ t.lpi.acceptedRun = s.lpi.acceptedRun ∧
        t.lpi.quietCycles = s.lpi.quietCycles ∧ t.lpi.frameStart = s.lpi.frameStart) ∧
      t.lpi.decoder = (if atAcceptance then .endSlot 2 else s.lpi.decoder) ∧
      (x.candidate = .beacon → t.ltu = { s.ltu with slot := .offered }) ∧
      (x.candidate ≠ .beacon → t.ltu = s.ltu) ∧
      (x.candidate ≠ .report → t.fru.reportSlot = s.fru.reportSlot ∧ t.fru.heldPage = s.fru.heldPage) ∧
      (x.candidate = .report → ∀ q, s.fru.reportSlot = .sending q →
        t.fru.reportSlot = .waiting (s.fru.heldPage.getD q) ∧ t.fru.heldPage = none) ∧
      t.mku = s.mku ∧ t.sbs = s.sbs ∧ t.asc = s.asc ∧ t.dcu = s.dcu ∧ t.tvu = s.tvu ∧ t.llu = s.llu ∧
      t.srh = s.srh ∧ t.cfl = s.cfl)

/-- R145, R11, R49, R167: the line acceptance of the station's own frame: the fault count is 0 and the owner clears its
candidate: the slot EMPTY, the head out of the queue, the report slot EMPTY or given to the held page; the frame
counts nowhere. R137: the acceptance stands when the frame has run its length, and not before. -/
def Obligations.OwnFrameAcceptedClears : Prop :=
  ∀ (s : State) (x : Transmission), s.lpi.transmission = some x →
    (x.bit < x.frame.ticks → exec .ownFrameAccepted s = .next s) ∧
    (x.frame.ticks ≤ x.bit → ∃ t, exec .ownFrameAccepted s = .next t ∧
      t.lpi = { s.lpi with transmission := none, faultCount := 0, decoder := .outside 0 } ∧
      (x.candidate = .beacon → t.ltu = { s.ltu with slot := .empty } ∧ t.mku = s.mku ∧ t.fru = s.fru) ∧
      (x.candidate = .mark → t.mku = { s.mku with queue := s.mku.queue.tail } ∧ t.ltu = s.ltu ∧
        t.fru = s.fru) ∧
      (x.candidate = .report → t.ltu = s.ltu ∧ t.mku = s.mku ∧
        (s.fru.heldPage = none → t.fru = { s.fru with reportSlot := .empty }) ∧
        (∀ p, s.fru.heldPage = some p → t.fru = { s.fru with reportSlot := .waiting p, heldPage := none })) ∧
      t.fru.counters = s.fru.counters ∧ t.sbs = s.sbs ∧ t.asc = s.asc ∧ t.dcu = s.dcu ∧ t.tvu = s.tvu ∧
      t.llu = s.llu ∧ t.srh = s.srh ∧ t.cfl = s.cfl)

/-- R147, R139, R153: a discarded frame counts in rx rejects exactly when the station found it malformed, ends the
accepted run, and reaches no block; the line acceptance of another party's frame, before any block takes it, counts,
ends the frame, and in MUTED adds to the accepted run, the 32nd ending the mute; nothing else of the LPI changes. A
frame taken while the decoder stands outside one is taken whole, by the model's choice (log 6), so that in MUTED its
start bit sets the frame-start indicator. -/
def Obligations.FramesCloseRejectedOrAccepted : Prop :=
  (∀ (s : State) (f : WireFrame), s.Heeds (.frameRejected f) →
    ∃ t, exec (.frameRejected f) s = .next t ∧
      t.fru = (if f.malformed = true then (s.count .rxRejects).fru else s.fru) ∧
      (s.lpi.state ≠ .muted ∨ (∃ bit heeded, s.lpi.decoder = .inside bit heeded) →
        t.lpi = { s.lpi with decoder := .outside 0, acceptedRun := 0 }) ∧
      (s.lpi.state = .muted → (∀ bit heeded, s.lpi.decoder ≠ .inside bit heeded) →
        t.lpi = { s.lpi with decoder := .outside 0, acceptedRun := 0, frameStart := true }) ∧
      t.ltu = s.ltu ∧ t.sbs = s.sbs ∧ t.mku = s.mku ∧ t.asc = s.asc ∧ t.dcu = s.dcu ∧ t.tvu = s.tvu ∧
      t.llu = s.llu ∧ t.srh = s.srh ∧ t.cfl = s.cfl) ∧
  (∀ (s : State) (i : Instr), s.Heeds i →
    s.accepted.fru = { s.fru with counters := { s.fru.counters with
      acceptedFrames := min 65535 (s.fru.counters.acceptedFrames + 1) } } ∧
    s.accepted.lpi.decoder = .outside 0 ∧
    (s.lpi.state ≠ .muted → s.accepted.lpi = { s.lpi with decoder := .outside 0 }) ∧
    (s.lpi.state = .muted → s.lpi.acceptedRun + 1 < 32 →
      ((∃ bit heeded, s.lpi.decoder = .inside bit heeded) →
        s.accepted.lpi = { s.lpi with decoder := .outside 0, acceptedRun := s.lpi.acceptedRun + 1 }) ∧
      ((∀ bit heeded, s.lpi.decoder ≠ .inside bit heeded) →
        s.accepted.lpi =
          { s.lpi with decoder := .outside 0, acceptedRun := s.lpi.acceptedRun + 1, frameStart := true })) ∧
    (s.lpi.state = .muted → 32 ≤ s.lpi.acceptedRun + 1 → s.accepted.lpi =
      { s.lpi with decoder := .outside 0, state := .active, faultCount := 0, acceptedRun := 0, quietCycles := 0,
                   frameStart := false }) ∧
    s.accepted.ltu = s.ltu ∧ s.accepted.sbs = s.sbs ∧ s.accepted.mku = s.mku ∧ s.accepted.asc = s.asc ∧
    s.accepted.dcu = s.dcu ∧ s.accepted.tvu = s.tvu ∧ s.accepted.llu = s.llu ∧ s.accepted.srh = s.srh ∧
    s.accepted.cfl = s.cfl ∧ s.accepted.pending = s.pending)

/-- R138, R153: the decoder finds its place after 140 consecutive recessive bits: a recessive bit time adds to the run
and the 140th ends it, and a dominant bit begins it anew. R137, R144: outside a frame a recessive bit time adds to the
interframe gap up to its three, within a frame the place moves on by a bit (no further than 127 without a close: log
25), and an end slot runs down to its close (log 24). Every tick moves the decoder on by one such bit time, in every
run state, behind the LPI's part of the tick where the station may send; the LTU's half of a tick does not move it.
That the command RECEIVE_DECODER_OUTSIDE_FRAME is trusted at any run is the model's choice (log 4), as are the line
idle at once (log 21) and what a dominant bit read there does (log 22). A start bit read outside a frame puts the
decoder within a frame, to be heeded unless the station is SILENT (log 23), and while MUTED sets the frame-start
indicator. A station held in reset reads nothing (R181). R137, R147: a station that reads a malformed frame from the
line drives its acceptance bit dominant, and no other bit of it, nor any of a frame that is not malformed; what it
reads is an argument by the model's choice (log 20). -/
def Obligations.DecoderFollowsFrames : Prop :=
  (∀ run : Nat,
    (run + 1 < 140 → (Decoder.unsynchronised run false).advance = .unsynchronised (run + 1) false) ∧
    (140 ≤ run + 1 → (Decoder.unsynchronised run false).advance = .outside 3) ∧
    (Decoder.unsynchronised run true).advance = .unsynchronised 0 false ∧
    (run < 3 → (Decoder.outside run).advance = .outside (run + 1)) ∧
    (3 ≤ run → (Decoder.outside run).advance = .outside 3)) ∧
  (∀ (bit : Nat) (heeded : Bool),
    (bit < 127 → (Decoder.inside bit heeded).advance = .inside (bit + 1) heeded) ∧
    (127 ≤ bit → (Decoder.inside bit heeded).advance = .inside 127 heeded)) ∧
  (∀ left : Nat, (1 < left → (Decoder.endSlot left).advance = .endSlot (left - 1)) ∧
    (left ≤ 1 → (Decoder.endSlot left).advance = .outside 0)) ∧
  (∀ s : State, s.pending = [] →
    (s.cfl.run = .halted ∨ s.running = true ∧ s.ltu.ticked = true →
      ∃ t u, step s = .next t ∧ s.LpiPart u ∧ t.lpi.decoder = u.lpi.decoder.advance) ∧
    (s.running = true → s.ltu.ticked = false → ∃ t, step s = .next t ∧ t.lpi.decoder = s.lpi.decoder) ∧
    (∀ k, s.cfl.run = .configuring → s.cfl.read = .reading k →
      ∃ t, step s = .next t ∧ t.lpi.decoder = s.lpi.decoder.advance)) ∧
  (∀ s : State, s.heldInReset = false →
    (∀ run dominant, s.lpi.decoder = .unsynchronised run dominant →
      exec .receiveDecoderOutsideFrame s = .next { s with lpi := { s.lpi with decoder := .outside 3 } } ∧
      (s.lpi.transmission = none → exec .startBitRead s =
        .next { s with lpi := { s.lpi with decoder := .unsynchronised 0 true } })) ∧
    (∀ run, s.lpi.decoder = .outside run →
      exec .receiveDecoderOutsideFrame s = .next s ∧
      (s.lpi.transmission = none → ∃ t h, exec .startBitRead s = .next t ∧
        t = { s with lpi := { s.lpi with decoder := .inside 0 h, frameStart := t.lpi.frameStart } } ∧
        (h = true ↔ s.lpi.state ≠ .silent) ∧
        (s.lpi.state = .muted → t.lpi.frameStart = true) ∧
        (s.lpi.state ≠ .muted → t.lpi.frameStart = s.lpi.frameStart)))) ∧
  (∀ s : State, s.heldInReset = true →
    exec .receiveDecoderOutsideFrame s = .next s ∧ exec .startBitRead s = .next s) ∧
  (∀ (s : State) (bit : Nat) (f : WireFrame), s.lpi.transmission = none → s.lpi.decoder = .inside bit true →
    s.lpi.state ≠ .silent → (s.ltx (some f) = false ↔ f.malformed = true ∧ bit + 2 = f.ticks))

/-- R148, R149, R53, R54: a frame of any class that carries the station's own address sets ADDRESS_CLASH and reaches no
block; a REPORT of another party, or a frame of class 6 or 7, is counted and ignored, and so is a MARK outside RUNNING,
in LISTEN, with a phase not below P, or that names no valid subscription entry (R25, R26, R31). R137: a frame command
of any class, accepted or rejected, that comes before a frame of its length can close changes nothing (a query meets
the own report on the wire as R166 says). -/
def Obligations.FramesThatReachNoBlock : Prop :=
  ∀ (s : State) (source : Address),
    (source = s.cfl.address →
      let clash := Host.Outcome.next (s.accepted.setFlag .addressClash)
      (∀ c p q, s.Heeds (.beacon source c p q) → exec (.beacon source c p q) s = clash) ∧
      (∀ c n k p, s.Heeds (.mark source c n k p) → exec (.mark source c n k p) s = clash) ∧
      (∀ g k, s.Heeds (.clearFaults source g k) → exec (.clearFaults source g k) s = clash) ∧
      (∀ g k, s.Heeds (.purge source g k) → exec (.purge source g k) s = clash) ∧
      (∀ g k a, s.Heeds (.restart source g k a) → exec (.restart source g k a) s = clash) ∧
      (∀ g k o, s.Heeds (.unknownOperation source g k o) → exec (.unknownOperation source g k o) s = clash) ∧
      (∀ g k e d, s.Heeds (.retime source g k e d) → exec (.retime source g k e d) s = clash) ∧
      (∀ g p, s.Heeds (.query source g p) → exec (.query source g p) s = clash) ∧
      (∀ c, s.Heeds (.report source c) → exec (.report source c) s = clash)) ∧
    (source ≠ s.cfl.address →
      (∀ c, s.Heeds (.report source c) → exec (.report source c) s = .next s.accepted) ∧
      (∀ channel seq cycleLow phase, s.Heeds (.mark source channel seq cycleLow phase) →
        (s.running = false ∨ s.ltu.sync = .listen ∨ s.period ≤ phase.toNat ∨
          ∀ i, ¬s.Names source (channel.toNat % 8) i) →
        exec (.mark source channel seq cycleLow phase) s = .next s.accepted)) ∧
    (∀ (i : Instr) (f : WireFrame) (bit : Nat) (h : Bool), i.wireFrame = some f → s.lpi.decoder = .inside bit h →
      bit < f.ticks → (s.reportOnWire = false ∨ ∀ a g p, i ≠ .query a g p) → exec i s = .next s)

/-- R136, R139, R190, R191: the frame of every frame command reads back as that command, with every operand. R12, R49:
what a station sends, another reads: its beacon as a BEACON with its cycle, phase and period, the head of its mark-out
queue as a MARK with its channel, sequence, low cycle bits and phase, and its report as a REPORT with its payload. A
mark channel is the low three bits of its byte, whatever the unused ones. R168, R169, R170, R192: the payload of every
report page reads back field by field: twelve bytes, the page number, the summary, and the ten bytes of the page. -/
def Obligations.FramesReadBack : Prop :=
  (∀ (i : Instr) (f : WireFrame) (start : StartReads), i.wellFormed = true → frameOfCommand i = some f →
    (∀ source target tag a, i = .restart source target tag a → a = start) →
    decodeFrame start f = some i) ∧
  (∀ (s : State) (q : QueuedMark) (p : Fin 8) (start : StartReads),
    decodeFrame start s.beaconFrame = some (.beacon s.cfl.address s.now.cycle
      (BitVec.ofNat 16 s.now.phase) (BitVec.ofNat 16 s.period)) ∧
    decodeFrame start (s.markFrame q) = some (.mark s.cfl.address (BitVec.ofNat 8 q.channel.val) q.sequence
      (q.instant.cycle.setWidth 16) (BitVec.ofNat 16 q.instant.phase)) ∧
    decodeFrame start (s.reportFrame p) = some (.report s.cfl.address { cls := 5#3, payload := s.reportPayload p })) ∧
  (∀ octet : Byte, (markChannel octet).val = octet.toNat % 8) ∧
  (∀ s : State,
    let page := s.reportPayload
    let half := fun (p : Fin 8) (i : Nat) => half16At (page p) i
    let counter := fun c => BitVec.ofNat 16 (s.fru.counters.value c)
    (∀ p : Fin 8, (page p).length = 12 ∧ (byteAt (page p) 0).toNat = p.val ∧
      ((byteAt (page p) 1).getLsbD 7 = true ↔ s.cfl.run = .halted) ∧
      ((byteAt (page p) 1).getLsbD 6 = true ↔ s.ltu.sync = .locked) ∧
      (byteAt (page p) 1).extractLsb' 0 6 = 0#6) ∧
    (word32At (page 0) 2 = s.now.cycle ∧ half 0 6 = BitVec.ofNat 16 s.now.phase ∧
      (s.ltu.sync = .listen → byteAt (page 0) 8 = 0#8) ∧ (s.ltu.sync = .locked → byteAt (page 0) 8 = 1#8) ∧
      (s.lpi.state = .silent → byteAt (page 0) 9 = 0#8) ∧ (s.lpi.state = .reportOnly → byteAt (page 0) 9 = 1#8) ∧
      (s.lpi.state = .active → byteAt (page 0) 9 = 2#8) ∧ (s.lpi.state = .muted → byteAt (page 0) 9 = 3#8) ∧
      (s.ltu.lastSource = none → byteAt (page 0) 10 = 0xFF#8) ∧
      (∀ a, s.ltu.lastSource = some a → byteAt (page 0) 10 = a.setWidth 8) ∧
      byteAt (page 0) 11 = BitVec.ofNat 8 s.ltu.streak) ∧
    ((∀ i f, EventFlag.ordered[i]? = some f → (half 1 2).getLsbD i = s.fru.events.has f) ∧
      (half 1 2).getLsbD 14 = false ∧ (half 1 2).getLsbD 15 = false ∧
      byteAt (page 1) 4 = BitVec.ofNat 8 (s.notLocked.toNat + 2 * s.muted.toNat) ∧
      byteAt (page 1) 5 = BitVec.ofNat 8 s.faultLine.toNat ∧ half 1 6 = s.fru.mask ∧ word32At (page 1) 8 = 0#32) ∧
    (half 2 2 = counter .strays ∧ half 2 4 = counter .merges ∧ half 2 6 = counter .lateFires ∧
      half 2 8 = counter .missed ∧ half 2 10 = counter .lostMarks) ∧
    (half 3 2 = counter .duplicates ∧ half 3 4 = counter .poolRefusals ∧ half 3 6 = counter .markOutDrops ∧
      half 3 8 = counter .txFaults ∧ half 3 10 = counter .refusedRequests) ∧
    (half 4 2 = counter .rxRejects ∧ half 4 4 = counter .acceptedFrames ∧ word32At (page 4) 6 = s.tvu.position ∧
      half 4 10 = 0#16) ∧
    (byteAt (page 5) 2 = BitVec.ofNat 8 s.asc.time.length ∧ byteAt (page 5) 3 = BitVec.ofNat 8 s.asc.travel.length ∧
      byteAt (page 5) 4 = BitVec.ofNat 8 s.asc.free.length ∧
      (s.asc.free = [] → byteAt (page 5) 5 = 0xFF#8) ∧
      (∀ slot rest, s.asc.free = slot :: rest → byteAt (page 5) 5 = BitVec.ofNat 8 slot.val) ∧
      byteAt (page 5) 6 = BitVec.ofNat 8 s.mku.queue.length ∧
      (s.asc.time = [] → half 5 7 = 0xFFFF#16 ∧ half 5 9 = 0xFFFF#16) ∧
      (∀ a rest, s.asc.time = a :: rest →
        half 5 7 = a.due.cycle.setWidth 16 ∧ half 5 9 = BitVec.ofNat 16 a.due.phase) ∧
      byteAt (page 5) 11 = 0#8) ∧
    (∀ n : LineId,
      (s.functionOf n = .drive → byteAt (page 6) (2 + n.val) = BitVec.ofNat 8 (s.drive n).claim) ∧
      (s.functionOf n ≠ .drive → byteAt (page 6) (2 + n.val) = 0#8) ∧
      ((byteAt (page 6) 10).getLsbD n.val = true ↔
        (s.functionOf n).driven = true ∧ (s.line n).presented = some .active) ∧
      ((byteAt (page 6) 11).getLsbD n.val = true ↔ s.functionOf n = .drive ∧ (s.line n).mismatch = true)) ∧
    (half 7 2 = s.cfl.identity ∧ half 7 4 = s.cfl.checkValue ∧ byteAt (page 7) 6 = BitVec.ofNat 8 s.cfl.haltCode ∧
      byteAt (page 7) 7 = s.cfl.address.setWidth 8 ∧ word32At (page 7) 8 = 0#32))

/-! ### Faults, reports and service requests -/

/-- R161, R162: the FAULT line: inactive in CONFIGURING, active in HALTED, and in RUNNING active exactly when some set
flag, or true condition, has its mask bit set. -/
def Obligations.FaultLineFollowsTheFlags : Prop :=
  ∀ s : State,
    (s.cfl.run = .configuring → s.faultLine = false) ∧ (s.cfl.run = .halted → s.faultLine = true) ∧
    (s.cfl.run = .running → (s.faultLine = true ↔
      (s.fru.events.stray = true ∧ s.fru.mask.getLsbD 0 = true) ∨
      (s.fru.events.merge = true ∧ s.fru.mask.getLsbD 1 = true) ∨
      (s.fru.events.periodMismatch = true ∧ s.fru.mask.getLsbD 2 = true) ∨
      (s.fru.events.addressClash = true ∧ s.fru.mask.getLsbD 3 = true) ∨
      (s.fru.events.markGap = true ∧ s.fru.mask.getLsbD 4 = true) ∨
      (s.fru.events.markTooOld = true ∧ s.fru.mask.getLsbD 5 = true) ∨
      (s.fru.events.missed = true ∧ s.fru.mask.getLsbD 6 = true) ∨
      (s.fru.events.poolExhausted = true ∧ s.fru.mask.getLsbD 7 = true) ∨
      (s.fru.events.markOutOverrun = true ∧ s.fru.mask.getLsbD 8 = true) ∨
      (s.fru.events.driveTimeout = true ∧ s.fru.mask.getLsbD 9 = true) ∨
      (s.fru.events.driveMismatch = true ∧ s.fru.mask.getLsbD 10 = true) ∨
      (s.fru.events.txFault = true ∧ s.fru.mask.getLsbD 11 = true) ∨
      (s.fru.events.requestRefused = true ∧ s.fru.mask.getLsbD 12 = true) ∨
      (s.fru.events.restarted = true ∧ s.fru.mask.getLsbD 13 = true) ∨
      (s.ltu.sync = .listen ∧ s.fru.mask.getLsbD 14 = true) ∨
      (s.lpi.state = .muted ∧ s.fru.mask.getLsbD 15 = true)))

/-- R172, R173: a request in RUNNING whose target is another station's is ignored; one addressed here is refused by the
tag check when the configured tag is 0xFFFF, or is neither 0x0000 nor the carried one: REQUEST_REFUSED and one count,
and nothing else; and it is accepted when the configured tag is 0x0000, or is the carried one and not 0xFFFF: each
operation then does its own work. -/
def Obligations.TagCheckGuardsRequests : Prop :=
  ∀ (s : State) (source : Address) (target : Byte) (tag t : Half),
    s.running = true → source ≠ s.cfl.address → s.srh.lineTag = some t →
    let ignored := target ≠ s.cfl.address.setWidth 8 ∧ target ≠ 255#8
    let refused := ¬ignored ∧ (t = 0xFFFF#16 ∨ (t ≠ 0x0000#16 ∧ t ≠ tag))
    let taken := ¬ignored ∧ (t = 0x0000#16 ∨ (t ≠ 0xFFFF#16 ∧ t = tag))
    let refusal := (s.accepted.setFlag .requestRefused).count .refusedRequests
    let answers := fun (i : Instr) (work : State) => s.Heeds i →
      (ignored → exec i s = .next s.accepted) ∧ (refused → exec i s = .next refusal) ∧ (taken → exec i s = .next work)
    answers (.clearFaults source target tag) s.accepted.clearEvents ∧
    answers (.purge source target tag) s.accepted.cancelAll ∧
    (∀ a, answers (.restart source target tag a) (s.accepted.restartStation a)) ∧
    (∀ o, answers (.unknownOperation source target tag o) refusal) ∧
    (∀ e d, answers (.retime source target tag e d) (s.accepted.retimeEntry e d))

/-- R174: CLEAR_FAULTS, accepted, clears the fourteen event flags and nothing else; the FAULT line then follows the two
condition flags under the mask. -/
def Obligations.ClearFaultsClearsTheFlags : Prop :=
  ∀ (s : State) (source : Address) (target : Byte) (tag : Half),
    s.Heeds (.clearFaults source target tag) → s.running = true → source ≠ s.cfl.address → s.addressed target = true →
    tagAccepted s.srh.lineTag tag = true →
    ∃ t, exec (.clearFaults source target tag) s = .next t ∧ (∀ f, t.fru.events.has f = false) ∧
      t = { s.accepted with fru := { s.accepted.fru with events := t.fru.events } } ∧
      (t.faultLine = true ↔ (t.notLocked = true ∧ s.fru.mask.getLsbD 14 = true) ∨
        (t.muted = true ∧ s.fru.mask.getLsbD 15 = true))

/-- R175, R82, R81: PURGE, accepted, cancels every pending action: both schedules empty, the slots on the free stack in
the order of cancellation, no flag and no count; from a sound state all 48 slots are then free, every claim is 0, every
demand inactive and every on-time countdown stopped. -/
def Obligations.PurgeEmptiesTheSchedules : Prop :=
  ∀ (s : State) (source : Address) (target : Byte) (tag : Half),
    s.Heeds (.purge source target tag) → s.running = true → source ≠ s.cfl.address → s.addressed target = true →
    tagAccepted s.srh.lineTag tag = true →
    ∃ t, exec (.purge source target tag) s = .next t ∧ t.asc.time = [] ∧ t.asc.travel = [] ∧
      t.asc.free = (s.asc.travel.map Action.slot).reverse ++ ((s.asc.time.map Action.slot).reverse ++ s.asc.free) ∧
      (s.SlotsPartitioned → t.asc.free.length = 48) ∧ t.asc.limits = s.asc.limits ∧
      (s.ClaimsSound → ∀ n, (t.drive n).claim = 0 ∧ (t.drive n).demand = .inactive) ∧
      (s.ActionsSound → ∀ n, (t.drive n).countdown = none) ∧
      t.fru = s.accepted.fru ∧ t.lpi = s.accepted.lpi ∧ t.ltu = s.ltu ∧ t.sbs = s.sbs ∧ t.mku = s.mku ∧
      t.tvu = s.tvu ∧ t.llu = s.llu ∧ t.srh = s.srh ∧ t.cfl = s.cfl

/-- R173, R176, R181: RESTART, tag-checked in RUNNING and unchecked in HALTED: event flags kept with RESTARTED set,
counters kept, the decoder in its place, every other block at its reset value, and a new start reading with the straps
just sampled. That a pin held from outside is free after it is the model's choice (log 15), and the picture of the
memory is an operand of the command (log 11). -/
def Obligations.RestartBeginsANewStart : Prop :=
  ∀ (s : State) (source : Address) (target : Byte) (tag : Half) (start : StartReads),
    s.Heeds (.restart source target tag start) → source ≠ s.cfl.address → s.addressed target = true →
    ((s.cfl.run = .running ∧ tagAccepted s.srh.lineTag tag = true) ∨ s.cfl.run = .halted) →
    ∃ t, exec (.restart source target tag start) s = .next t ∧
      t.cfl = { Cfl.reset with read := .reading 0, address := start.straps, memory := start.memory } ∧
      t.fru.events = { s.fru.events with restarted := true } ∧ t.fru.counters = s.accepted.fru.counters ∧
      t.fru.mask = 0#16 ∧ t.fru.reportSlot = .empty ∧ t.fru.heldPage = none ∧
      t.lpi = { Lpi.reset with decoder := .outside 0 } ∧ t.ltu = Ltu.reset ∧ t.sbs = Sbs.reset ∧
      t.mku = Mku.reset ∧ t.asc = Asc.reset ∧ t.dcu = Dcu.reset ∧ t.tvu = Tvu.reset ∧ t.llu = Llu.reset ∧
      t.srh = Srh.reset ∧ t.faultLine = false ∧ t.pending = s.pending

/-- R173, R149, R177: in HALTED every frame but QUERY and RESTART is counted and ignored, and so is a RESTART
addressed to another station; in RUNNING a CONTROL with an unknown operation that passes the tag check is refused. -/
def Obligations.HaltedIgnoresAndUnknownRefused : Prop :=
  ∀ (s : State) (source : Address) (target : Byte) (tag : Half), source ≠ s.cfl.address →
    (s.cfl.run = .halted →
      let ignores := fun i : Instr => s.Heeds i → exec i s = .next s.accepted
      (∀ c p q, ignores (.beacon source c p q)) ∧ (∀ c n k p, ignores (.mark source c n k p)) ∧
      ignores (.clearFaults source target tag) ∧ ignores (.purge source target tag) ∧
      (∀ o, ignores (.unknownOperation source target tag o)) ∧
      (∀ e d, ignores (.retime source target tag e d)) ∧ (∀ c, ignores (.report source c)) ∧
      (s.addressed target = false → ∀ start, ignores (.restart source target tag start))) ∧
    (s.running = true → s.addressed target = true → tagAccepted s.srh.lineTag tag = true →
      ∀ o, s.Heeds (.unknownOperation source target tag o) → exec (.unknownOperation source target tag o) s =
        .next ((s.accepted.setFlag .requestRefused).count .refusedRequests))

/-- R165, R166: a query for a page from 0 to 7 addressed here fills an EMPTY slot, replaces the page of a WAITING one,
and becomes the held page behind a report on the wire; every other query is ignored. A query taken while the own
report is on the wire follows R166: it counts as an accepted frame, and but for the held page nothing else of the
station changes; no other frame is received there, an inference (log 7). -/
def Obligations.QueryFillsTheReportSlot : Prop :=
  ∀ (s : State) (source : Address) (target page : Byte), source ≠ s.cfl.address →
    (s.Heeds (.query source target page) → ∀ h : page.toNat < 8, s.addressed target = true →
      (s.fru.reportSlot = .empty → exec (.query source target page) s = .next
        { s.accepted with fru := { s.accepted.fru with reportSlot := .waiting ⟨page.toNat, h⟩ } }) ∧
      (∀ q, s.fru.reportSlot = .waiting q → exec (.query source target page) s = .next
        { s.accepted with fru := { s.accepted.fru with reportSlot := .waiting ⟨page.toNat, h⟩ } })) ∧
    (∀ x, s.lpi.transmission = some x → x.candidate = .report →
      let taken := (s.count .acceptedFrames).noteAcceptance
      (s.lpi.state ≠ .muted → taken = { s with fru := { s.fru with counters := { s.fru.counters with
        acceptedFrames := min 65535 (s.fru.counters.acceptedFrames + 1) } } }) ∧
      (∀ q, s.fru.reportSlot = .sending q → ∀ h : page.toNat < 8, s.addressed target = true →
        exec (.query source target page) s =
          .next { taken with fru := { taken.fru with heldPage := some ⟨page.toNat, h⟩ } }) ∧
      (8 ≤ page.toNat ∨ s.addressed target = false → exec (.query source target page) s = .next taken)) ∧
    (s.Heeds (.query source target page) → (8 ≤ page.toNat ∨ s.addressed target = false) →
      exec (.query source target page) s = .next s.accepted)

/-! ### Invariants -/

/-- Every invariant below holds of the station at a pin reset. -/
def Obligations.ResetIsSound : Prop :=
  State.reset.SlotsPartitioned ∧ State.reset.fru.counters.Bounded ∧ State.reset.TimeSound ∧
    State.reset.ActionsSound ∧ State.reset.DriveLinesOnly ∧ State.reset.HistorySound ∧ State.reset.QueueBounded

/-- R163: no counter passes 65,535. -/
def Obligations.StepKeepsCountersBounded : Prop :=
  ∀ s t : State, s.fru.counters.Bounded → step s = .next t → t.fru.counters.Bounded

/-- R62: every slot is in exactly one of the free stack and the two schedules. -/
def Obligations.StepKeepsSlotsPartitioned : Prop :=
  ∀ s t : State, s.SlotsPartitioned → step s = .next t → t.SlotsPartitioned

/-- R92, R29, R30, R65, R91, R96: for every line the claim count equals the number of pending actions that hold it,
behind every valid entry and every action stands a template that meets the ordering conditions, the on-time countdown
of an unclaimed line is stopped, and outside LOCKED there is neither action nor claim. With it, behind each of them
stands a template that meets the line condition, so that the claim of a line that is not DRIVE stays 0. -/
def Obligations.StepKeepsClaimsEqualHolders : Prop :=
  ∀ s t : State, s.ActionsSound → step s = .next t → t.ActionsSound ∧
    (s.DriveLinesOnly → t.DriveLinesOnly ∧ ∀ n, t.functionOf n ≠ .drive → (t.drive n).claim = 0)

/-- R1, R3, R11, R18, R21, R150, R179: the sound state of line time: the transmit state fits the run state, the phase
stays below P, the streak at most STRAY_LIMIT, the hold at most W, and the beacon slot EMPTY throughout a hold and
SENDING exactly while a beacon is on the wire. R4: only a pin reset or a RESTART takes a station out of LOCKED. R18:
the line instant of a LOCKED station never goes back, and its period stays. -/
def Obligations.StepKeepsLineTimeSound : Prop :=
  ∀ s t : State, s.TimeSound → step s = .next t → t.TimeSound ∧
    (s.locked = true → t.locked = true ∨ s.pending.head? = some .pinReset ∨
      ∃ source target tag start, s.pending.head? = some (.restart source target tag start)) ∧
    (s.locked = true → t.locked = true → t.period = s.period ∧ 0 ≤ Instant.distance s.period s.now t.now)

/-- R104, R110: the travel history holds at most 16 entries of consecutive cycles, the newest the current cycle in
LOCKED; and the mark-out queue at most 16 captures (R47). -/
def Obligations.StepKeepsHistoryConsecutive : Prop :=
  ∀ s t : State, s.TimeSound → s.HistorySound → s.QueueBounded → step s = .next t →
    t.HistorySound ∧ t.QueueBounded
end

