-- ==== Sys2Proof/Laws/State.lean ====
section
/-! SUPPORT. What each plain update leaves unchanged: one lemma for each block and update, true by computation. -/

namespace Sys2Proof.Machine.State

variable (s : State)

@[simp] theorem setFlag_ltu (f : EventFlag) : (s.setFlag f).ltu = s.ltu := rfl
@[simp] theorem setFlag_sbs (f : EventFlag) : (s.setFlag f).sbs = s.sbs := rfl
@[simp] theorem setFlag_mku (f : EventFlag) : (s.setFlag f).mku = s.mku := rfl
@[simp] theorem setFlag_asc (f : EventFlag) : (s.setFlag f).asc = s.asc := rfl
@[simp] theorem setFlag_dcu (f : EventFlag) : (s.setFlag f).dcu = s.dcu := rfl
@[simp] theorem setFlag_tvu (f : EventFlag) : (s.setFlag f).tvu = s.tvu := rfl
@[simp] theorem setFlag_llu (f : EventFlag) : (s.setFlag f).llu = s.llu := rfl
@[simp] theorem setFlag_lpi (f : EventFlag) : (s.setFlag f).lpi = s.lpi := rfl
@[simp] theorem setFlag_srh (f : EventFlag) : (s.setFlag f).srh = s.srh := rfl
@[simp] theorem setFlag_cfl (f : EventFlag) : (s.setFlag f).cfl = s.cfl := rfl
@[simp] theorem setFlag_pending (f : EventFlag) : (s.setFlag f).pending = s.pending := rfl

@[simp] theorem countBy_ltu (c : CounterName) (k : Nat) : (s.countBy c k).ltu = s.ltu := rfl
@[simp] theorem countBy_sbs (c : CounterName) (k : Nat) : (s.countBy c k).sbs = s.sbs := rfl
@[simp] theorem countBy_mku (c : CounterName) (k : Nat) : (s.countBy c k).mku = s.mku := rfl
@[simp] theorem countBy_asc (c : CounterName) (k : Nat) : (s.countBy c k).asc = s.asc := rfl
@[simp] theorem countBy_dcu (c : CounterName) (k : Nat) : (s.countBy c k).dcu = s.dcu := rfl
@[simp] theorem countBy_tvu (c : CounterName) (k : Nat) : (s.countBy c k).tvu = s.tvu := rfl
@[simp] theorem countBy_llu (c : CounterName) (k : Nat) : (s.countBy c k).llu = s.llu := rfl
@[simp] theorem countBy_lpi (c : CounterName) (k : Nat) : (s.countBy c k).lpi = s.lpi := rfl
@[simp] theorem countBy_srh (c : CounterName) (k : Nat) : (s.countBy c k).srh = s.srh := rfl
@[simp] theorem countBy_cfl (c : CounterName) (k : Nat) : (s.countBy c k).cfl = s.cfl := rfl
@[simp] theorem countBy_pending (c : CounterName) (k : Nat) : (s.countBy c k).pending = s.pending := rfl

@[simp] theorem count_ltu (c : CounterName) : (s.count c).ltu = s.ltu := rfl
@[simp] theorem count_sbs (c : CounterName) : (s.count c).sbs = s.sbs := rfl
@[simp] theorem count_mku (c : CounterName) : (s.count c).mku = s.mku := rfl
@[simp] theorem count_asc (c : CounterName) : (s.count c).asc = s.asc := rfl
@[simp] theorem count_dcu (c : CounterName) : (s.count c).dcu = s.dcu := rfl
@[simp] theorem count_tvu (c : CounterName) : (s.count c).tvu = s.tvu := rfl
@[simp] theorem count_llu (c : CounterName) : (s.count c).llu = s.llu := rfl
@[simp] theorem count_lpi (c : CounterName) : (s.count c).lpi = s.lpi := rfl
@[simp] theorem count_srh (c : CounterName) : (s.count c).srh = s.srh := rfl
@[simp] theorem count_cfl (c : CounterName) : (s.count c).cfl = s.cfl := rfl
@[simp] theorem count_pending (c : CounterName) : (s.count c).pending = s.pending := rfl

@[simp] theorem mapLine_ltu (n : LineId) (f : LocalLine → LocalLine) : (s.mapLine n f).ltu = s.ltu := rfl
@[simp] theorem mapLine_sbs (n : LineId) (f : LocalLine → LocalLine) : (s.mapLine n f).sbs = s.sbs := rfl
@[simp] theorem mapLine_mku (n : LineId) (f : LocalLine → LocalLine) : (s.mapLine n f).mku = s.mku := rfl
@[simp] theorem mapLine_asc (n : LineId) (f : LocalLine → LocalLine) : (s.mapLine n f).asc = s.asc := rfl
@[simp] theorem mapLine_dcu (n : LineId) (f : LocalLine → LocalLine) : (s.mapLine n f).dcu = s.dcu := rfl
@[simp] theorem mapLine_tvu (n : LineId) (f : LocalLine → LocalLine) : (s.mapLine n f).tvu = s.tvu := rfl
@[simp] theorem mapLine_lpi (n : LineId) (f : LocalLine → LocalLine) : (s.mapLine n f).lpi = s.lpi := rfl
@[simp] theorem mapLine_fru (n : LineId) (f : LocalLine → LocalLine) : (s.mapLine n f).fru = s.fru := rfl
@[simp] theorem mapLine_srh (n : LineId) (f : LocalLine → LocalLine) : (s.mapLine n f).srh = s.srh := rfl
@[simp] theorem mapLine_cfl (n : LineId) (f : LocalLine → LocalLine) : (s.mapLine n f).cfl = s.cfl := rfl
@[simp] theorem mapLine_pending (n : LineId) (f : LocalLine → LocalLine) : (s.mapLine n f).pending = s.pending := rfl

@[simp] theorem mapLines_ltu (f : LocalLine → LocalLine) : (s.mapLines f).ltu = s.ltu := rfl
@[simp] theorem mapLines_sbs (f : LocalLine → LocalLine) : (s.mapLines f).sbs = s.sbs := rfl
@[simp] theorem mapLines_mku (f : LocalLine → LocalLine) : (s.mapLines f).mku = s.mku := rfl
@[simp] theorem mapLines_asc (f : LocalLine → LocalLine) : (s.mapLines f).asc = s.asc := rfl
@[simp] theorem mapLines_dcu (f : LocalLine → LocalLine) : (s.mapLines f).dcu = s.dcu := rfl
@[simp] theorem mapLines_tvu (f : LocalLine → LocalLine) : (s.mapLines f).tvu = s.tvu := rfl
@[simp] theorem mapLines_lpi (f : LocalLine → LocalLine) : (s.mapLines f).lpi = s.lpi := rfl
@[simp] theorem mapLines_fru (f : LocalLine → LocalLine) : (s.mapLines f).fru = s.fru := rfl
@[simp] theorem mapLines_srh (f : LocalLine → LocalLine) : (s.mapLines f).srh = s.srh := rfl
@[simp] theorem mapLines_cfl (f : LocalLine → LocalLine) : (s.mapLines f).cfl = s.cfl := rfl
@[simp] theorem mapLines_pending (f : LocalLine → LocalLine) : (s.mapLines f).pending = s.pending := rfl

@[simp] theorem mapDrive_ltu (n : LineId) (f : DriveLine → DriveLine) : (s.mapDrive n f).ltu = s.ltu := rfl
@[simp] theorem mapDrive_sbs (n : LineId) (f : DriveLine → DriveLine) : (s.mapDrive n f).sbs = s.sbs := rfl
@[simp] theorem mapDrive_mku (n : LineId) (f : DriveLine → DriveLine) : (s.mapDrive n f).mku = s.mku := rfl
@[simp] theorem mapDrive_asc (n : LineId) (f : DriveLine → DriveLine) : (s.mapDrive n f).asc = s.asc := rfl
@[simp] theorem mapDrive_tvu (n : LineId) (f : DriveLine → DriveLine) : (s.mapDrive n f).tvu = s.tvu := rfl
@[simp] theorem mapDrive_llu (n : LineId) (f : DriveLine → DriveLine) : (s.mapDrive n f).llu = s.llu := rfl
@[simp] theorem mapDrive_lpi (n : LineId) (f : DriveLine → DriveLine) : (s.mapDrive n f).lpi = s.lpi := rfl
@[simp] theorem mapDrive_fru (n : LineId) (f : DriveLine → DriveLine) : (s.mapDrive n f).fru = s.fru := rfl
@[simp] theorem mapDrive_srh (n : LineId) (f : DriveLine → DriveLine) : (s.mapDrive n f).srh = s.srh := rfl
@[simp] theorem mapDrive_cfl (n : LineId) (f : DriveLine → DriveLine) : (s.mapDrive n f).cfl = s.cfl := rfl
@[simp] theorem mapDrive_pending (n : LineId) (f : DriveLine → DriveLine) : (s.mapDrive n f).pending = s.pending := rfl

@[simp] theorem putTimePool_ltu (p : Pool Instant) : (s.putTimePool p).ltu = s.ltu := rfl
@[simp] theorem putTimePool_sbs (p : Pool Instant) : (s.putTimePool p).sbs = s.sbs := rfl
@[simp] theorem putTimePool_mku (p : Pool Instant) : (s.putTimePool p).mku = s.mku := rfl
@[simp] theorem putTimePool_tvu (p : Pool Instant) : (s.putTimePool p).tvu = s.tvu := rfl
@[simp] theorem putTimePool_llu (p : Pool Instant) : (s.putTimePool p).llu = s.llu := rfl
@[simp] theorem putTimePool_lpi (p : Pool Instant) : (s.putTimePool p).lpi = s.lpi := rfl
@[simp] theorem putTimePool_fru (p : Pool Instant) : (s.putTimePool p).fru = s.fru := rfl
@[simp] theorem putTimePool_srh (p : Pool Instant) : (s.putTimePool p).srh = s.srh := rfl
@[simp] theorem putTimePool_cfl (p : Pool Instant) : (s.putTimePool p).cfl = s.cfl := rfl
@[simp] theorem putTimePool_pending (p : Pool Instant) : (s.putTimePool p).pending = s.pending := rfl

@[simp] theorem putTravelPool_ltu (p : Pool Word) : (s.putTravelPool p).ltu = s.ltu := rfl
@[simp] theorem putTravelPool_sbs (p : Pool Word) : (s.putTravelPool p).sbs = s.sbs := rfl
@[simp] theorem putTravelPool_mku (p : Pool Word) : (s.putTravelPool p).mku = s.mku := rfl
@[simp] theorem putTravelPool_tvu (p : Pool Word) : (s.putTravelPool p).tvu = s.tvu := rfl
@[simp] theorem putTravelPool_llu (p : Pool Word) : (s.putTravelPool p).llu = s.llu := rfl
@[simp] theorem putTravelPool_lpi (p : Pool Word) : (s.putTravelPool p).lpi = s.lpi := rfl
@[simp] theorem putTravelPool_fru (p : Pool Word) : (s.putTravelPool p).fru = s.fru := rfl
@[simp] theorem putTravelPool_srh (p : Pool Word) : (s.putTravelPool p).srh = s.srh := rfl
@[simp] theorem putTravelPool_cfl (p : Pool Word) : (s.putTravelPool p).cfl = s.cfl := rfl
@[simp] theorem putTravelPool_pending (p : Pool Word) : (s.putTravelPool p).pending = s.pending := rfl

@[simp] theorem mapEntry_ltu (i : Fin 64) (f : Entry → Entry) : (s.mapEntry i f).ltu = s.ltu := rfl
@[simp] theorem mapEntry_mku (i : Fin 64) (f : Entry → Entry) : (s.mapEntry i f).mku = s.mku := rfl
@[simp] theorem mapEntry_asc (i : Fin 64) (f : Entry → Entry) : (s.mapEntry i f).asc = s.asc := rfl
@[simp] theorem mapEntry_dcu (i : Fin 64) (f : Entry → Entry) : (s.mapEntry i f).dcu = s.dcu := rfl
@[simp] theorem mapEntry_tvu (i : Fin 64) (f : Entry → Entry) : (s.mapEntry i f).tvu = s.tvu := rfl
@[simp] theorem mapEntry_llu (i : Fin 64) (f : Entry → Entry) : (s.mapEntry i f).llu = s.llu := rfl
@[simp] theorem mapEntry_lpi (i : Fin 64) (f : Entry → Entry) : (s.mapEntry i f).lpi = s.lpi := rfl
@[simp] theorem mapEntry_fru (i : Fin 64) (f : Entry → Entry) : (s.mapEntry i f).fru = s.fru := rfl
@[simp] theorem mapEntry_srh (i : Fin 64) (f : Entry → Entry) : (s.mapEntry i f).srh = s.srh := rfl
@[simp] theorem mapEntry_cfl (i : Fin 64) (f : Entry → Entry) : (s.mapEntry i f).cfl = s.cfl := rfl
@[simp] theorem mapEntry_pending (i : Fin 64) (f : Entry → Entry) : (s.mapEntry i f).pending = s.pending := rfl

@[simp] theorem mapLtu_sbs (f : Ltu → Ltu) : (s.mapLtu f).sbs = s.sbs := rfl
@[simp] theorem mapLtu_mku (f : Ltu → Ltu) : (s.mapLtu f).mku = s.mku := rfl
@[simp] theorem mapLtu_asc (f : Ltu → Ltu) : (s.mapLtu f).asc = s.asc := rfl
@[simp] theorem mapLtu_dcu (f : Ltu → Ltu) : (s.mapLtu f).dcu = s.dcu := rfl
@[simp] theorem mapLtu_tvu (f : Ltu → Ltu) : (s.mapLtu f).tvu = s.tvu := rfl
@[simp] theorem mapLtu_llu (f : Ltu → Ltu) : (s.mapLtu f).llu = s.llu := rfl
@[simp] theorem mapLtu_lpi (f : Ltu → Ltu) : (s.mapLtu f).lpi = s.lpi := rfl
@[simp] theorem mapLtu_fru (f : Ltu → Ltu) : (s.mapLtu f).fru = s.fru := rfl
@[simp] theorem mapLtu_srh (f : Ltu → Ltu) : (s.mapLtu f).srh = s.srh := rfl
@[simp] theorem mapLtu_cfl (f : Ltu → Ltu) : (s.mapLtu f).cfl = s.cfl := rfl
@[simp] theorem mapLtu_pending (f : Ltu → Ltu) : (s.mapLtu f).pending = s.pending := rfl

@[simp] theorem setDecoder_ltu (d : Decoder) : (s.setDecoder d).ltu = s.ltu := rfl
@[simp] theorem setDecoder_sbs (d : Decoder) : (s.setDecoder d).sbs = s.sbs := rfl
@[simp] theorem setDecoder_mku (d : Decoder) : (s.setDecoder d).mku = s.mku := rfl
@[simp] theorem setDecoder_asc (d : Decoder) : (s.setDecoder d).asc = s.asc := rfl
@[simp] theorem setDecoder_dcu (d : Decoder) : (s.setDecoder d).dcu = s.dcu := rfl
@[simp] theorem setDecoder_tvu (d : Decoder) : (s.setDecoder d).tvu = s.tvu := rfl
@[simp] theorem setDecoder_llu (d : Decoder) : (s.setDecoder d).llu = s.llu := rfl
@[simp] theorem setDecoder_fru (d : Decoder) : (s.setDecoder d).fru = s.fru := rfl
@[simp] theorem setDecoder_srh (d : Decoder) : (s.setDecoder d).srh = s.srh := rfl
@[simp] theorem setDecoder_cfl (d : Decoder) : (s.setDecoder d).cfl = s.cfl := rfl
@[simp] theorem setDecoder_pending (d : Decoder) : (s.setDecoder d).pending = s.pending := rfl

@[simp] theorem endMute_ltu : (s.endMute).ltu = s.ltu := rfl
@[simp] theorem endMute_sbs : (s.endMute).sbs = s.sbs := rfl
@[simp] theorem endMute_mku : (s.endMute).mku = s.mku := rfl
@[simp] theorem endMute_asc : (s.endMute).asc = s.asc := rfl
@[simp] theorem endMute_dcu : (s.endMute).dcu = s.dcu := rfl
@[simp] theorem endMute_tvu : (s.endMute).tvu = s.tvu := rfl
@[simp] theorem endMute_llu : (s.endMute).llu = s.llu := rfl
@[simp] theorem endMute_fru : (s.endMute).fru = s.fru := rfl
@[simp] theorem endMute_srh : (s.endMute).srh = s.srh := rfl
@[simp] theorem endMute_cfl : (s.endMute).cfl = s.cfl := rfl
@[simp] theorem endMute_pending : (s.endMute).pending = s.pending := rfl

@[simp] theorem noteRejection_ltu : (s.noteRejection).ltu = s.ltu := rfl
@[simp] theorem noteRejection_sbs : (s.noteRejection).sbs = s.sbs := rfl
@[simp] theorem noteRejection_mku : (s.noteRejection).mku = s.mku := rfl
@[simp] theorem noteRejection_asc : (s.noteRejection).asc = s.asc := rfl
@[simp] theorem noteRejection_dcu : (s.noteRejection).dcu = s.dcu := rfl
@[simp] theorem noteRejection_tvu : (s.noteRejection).tvu = s.tvu := rfl
@[simp] theorem noteRejection_llu : (s.noteRejection).llu = s.llu := rfl
@[simp] theorem noteRejection_fru : (s.noteRejection).fru = s.fru := rfl
@[simp] theorem noteRejection_srh : (s.noteRejection).srh = s.srh := rfl
@[simp] theorem noteRejection_cfl : (s.noteRejection).cfl = s.cfl := rfl
@[simp] theorem noteRejection_pending : (s.noteRejection).pending = s.pending := rfl

@[simp] theorem readStartBit_ltu : (s.readStartBit).ltu = s.ltu := rfl
@[simp] theorem readStartBit_sbs : (s.readStartBit).sbs = s.sbs := rfl
@[simp] theorem readStartBit_mku : (s.readStartBit).mku = s.mku := rfl
@[simp] theorem readStartBit_asc : (s.readStartBit).asc = s.asc := rfl
@[simp] theorem readStartBit_dcu : (s.readStartBit).dcu = s.dcu := rfl
@[simp] theorem readStartBit_tvu : (s.readStartBit).tvu = s.tvu := rfl
@[simp] theorem readStartBit_llu : (s.readStartBit).llu = s.llu := rfl
@[simp] theorem readStartBit_fru : (s.readStartBit).fru = s.fru := rfl
@[simp] theorem readStartBit_srh : (s.readStartBit).srh = s.srh := rfl
@[simp] theorem readStartBit_cfl : (s.readStartBit).cfl = s.cfl := rfl
@[simp] theorem readStartBit_pending : (s.readStartBit).pending = s.pending := rfl

@[simp] theorem meetFrame_ltu : (s.meetFrame).ltu = s.ltu := rfl
@[simp] theorem meetFrame_sbs : (s.meetFrame).sbs = s.sbs := rfl
@[simp] theorem meetFrame_mku : (s.meetFrame).mku = s.mku := rfl
@[simp] theorem meetFrame_asc : (s.meetFrame).asc = s.asc := rfl
@[simp] theorem meetFrame_dcu : (s.meetFrame).dcu = s.dcu := rfl
@[simp] theorem meetFrame_tvu : (s.meetFrame).tvu = s.tvu := rfl
@[simp] theorem meetFrame_llu : (s.meetFrame).llu = s.llu := rfl
@[simp] theorem meetFrame_fru : (s.meetFrame).fru = s.fru := rfl
@[simp] theorem meetFrame_srh : (s.meetFrame).srh = s.srh := rfl
@[simp] theorem meetFrame_cfl : (s.meetFrame).cfl = s.cfl := rfl
@[simp] theorem meetFrame_pending : (s.meetFrame).pending = s.pending := rfl

@[simp] theorem closeFrame_ltu : (s.closeFrame).ltu = s.ltu := rfl
@[simp] theorem closeFrame_sbs : (s.closeFrame).sbs = s.sbs := rfl
@[simp] theorem closeFrame_mku : (s.closeFrame).mku = s.mku := rfl
@[simp] theorem closeFrame_asc : (s.closeFrame).asc = s.asc := rfl
@[simp] theorem closeFrame_dcu : (s.closeFrame).dcu = s.dcu := rfl
@[simp] theorem closeFrame_tvu : (s.closeFrame).tvu = s.tvu := rfl
@[simp] theorem closeFrame_llu : (s.closeFrame).llu = s.llu := rfl
@[simp] theorem closeFrame_fru : (s.closeFrame).fru = s.fru := rfl
@[simp] theorem closeFrame_srh : (s.closeFrame).srh = s.srh := rfl
@[simp] theorem closeFrame_cfl : (s.closeFrame).cfl = s.cfl := rfl
@[simp] theorem closeFrame_pending : (s.closeFrame).pending = s.pending := rfl

@[simp] theorem endAttempt_ltu : (s.endAttempt).ltu = s.ltu := rfl
@[simp] theorem endAttempt_sbs : (s.endAttempt).sbs = s.sbs := rfl
@[simp] theorem endAttempt_mku : (s.endAttempt).mku = s.mku := rfl
@[simp] theorem endAttempt_asc : (s.endAttempt).asc = s.asc := rfl
@[simp] theorem endAttempt_dcu : (s.endAttempt).dcu = s.dcu := rfl
@[simp] theorem endAttempt_tvu : (s.endAttempt).tvu = s.tvu := rfl
@[simp] theorem endAttempt_llu : (s.endAttempt).llu = s.llu := rfl
@[simp] theorem endAttempt_fru : (s.endAttempt).fru = s.fru := rfl
@[simp] theorem endAttempt_srh : (s.endAttempt).srh = s.srh := rfl
@[simp] theorem endAttempt_cfl : (s.endAttempt).cfl = s.cfl := rfl
@[simp] theorem endAttempt_pending : (s.endAttempt).pending = s.pending := rfl

@[simp] theorem sendFrame_ltu (c : Candidate) (f : WireFrame) : (s.sendFrame c f).ltu = s.ltu := rfl
@[simp] theorem sendFrame_sbs (c : Candidate) (f : WireFrame) : (s.sendFrame c f).sbs = s.sbs := rfl
@[simp] theorem sendFrame_mku (c : Candidate) (f : WireFrame) : (s.sendFrame c f).mku = s.mku := rfl
@[simp] theorem sendFrame_asc (c : Candidate) (f : WireFrame) : (s.sendFrame c f).asc = s.asc := rfl
@[simp] theorem sendFrame_dcu (c : Candidate) (f : WireFrame) : (s.sendFrame c f).dcu = s.dcu := rfl
@[simp] theorem sendFrame_tvu (c : Candidate) (f : WireFrame) : (s.sendFrame c f).tvu = s.tvu := rfl
@[simp] theorem sendFrame_llu (c : Candidate) (f : WireFrame) : (s.sendFrame c f).llu = s.llu := rfl
@[simp] theorem sendFrame_fru (c : Candidate) (f : WireFrame) : (s.sendFrame c f).fru = s.fru := rfl
@[simp] theorem sendFrame_srh (c : Candidate) (f : WireFrame) : (s.sendFrame c f).srh = s.srh := rfl
@[simp] theorem sendFrame_cfl (c : Candidate) (f : WireFrame) : (s.sendFrame c f).cfl = s.cfl := rfl
@[simp] theorem sendFrame_pending (c : Candidate) (f : WireFrame) : (s.sendFrame c f).pending = s.pending := rfl

@[simp] theorem enterHalted_ltu (code : Nat) : (s.enterHalted code).ltu = s.ltu := rfl
@[simp] theorem enterHalted_sbs (code : Nat) : (s.enterHalted code).sbs = s.sbs := rfl
@[simp] theorem enterHalted_mku (code : Nat) : (s.enterHalted code).mku = s.mku := rfl
@[simp] theorem enterHalted_asc (code : Nat) : (s.enterHalted code).asc = s.asc := rfl
@[simp] theorem enterHalted_dcu (code : Nat) : (s.enterHalted code).dcu = s.dcu := rfl
@[simp] theorem enterHalted_tvu (code : Nat) : (s.enterHalted code).tvu = s.tvu := rfl
@[simp] theorem enterHalted_llu (code : Nat) : (s.enterHalted code).llu = s.llu := rfl
@[simp] theorem enterHalted_fru (code : Nat) : (s.enterHalted code).fru = s.fru := rfl
@[simp] theorem enterHalted_srh (code : Nat) : (s.enterHalted code).srh = s.srh := rfl
@[simp] theorem enterHalted_pending (code : Nat) : (s.enterHalted code).pending = s.pending := rfl

@[simp] theorem endRead_ltu : (s.endRead).ltu = s.ltu := rfl
@[simp] theorem endRead_sbs : (s.endRead).sbs = s.sbs := rfl
@[simp] theorem endRead_mku : (s.endRead).mku = s.mku := rfl
@[simp] theorem endRead_asc : (s.endRead).asc = s.asc := rfl
@[simp] theorem endRead_dcu : (s.endRead).dcu = s.dcu := rfl
@[simp] theorem endRead_tvu : (s.endRead).tvu = s.tvu := rfl
@[simp] theorem endRead_llu : (s.endRead).llu = s.llu := rfl
@[simp] theorem endRead_lpi : (s.endRead).lpi = s.lpi := rfl
@[simp] theorem endRead_fru : (s.endRead).fru = s.fru := rfl
@[simp] theorem endRead_srh : (s.endRead).srh = s.srh := rfl
@[simp] theorem endRead_pending : (s.endRead).pending = s.pending := rfl

@[simp] theorem proceed_ltu (start : StartReads) : (s.proceed start).ltu = s.ltu := rfl
@[simp] theorem proceed_sbs (start : StartReads) : (s.proceed start).sbs = s.sbs := rfl
@[simp] theorem proceed_mku (start : StartReads) : (s.proceed start).mku = s.mku := rfl
@[simp] theorem proceed_asc (start : StartReads) : (s.proceed start).asc = s.asc := rfl
@[simp] theorem proceed_dcu (start : StartReads) : (s.proceed start).dcu = s.dcu := rfl
@[simp] theorem proceed_tvu (start : StartReads) : (s.proceed start).tvu = s.tvu := rfl
@[simp] theorem proceed_llu (start : StartReads) : (s.proceed start).llu = s.llu := rfl
@[simp] theorem proceed_lpi (start : StartReads) : (s.proceed start).lpi = s.lpi := rfl
@[simp] theorem proceed_fru (start : StartReads) : (s.proceed start).fru = s.fru := rfl
@[simp] theorem proceed_srh (start : StartReads) : (s.proceed start).srh = s.srh := rfl
@[simp] theorem proceed_pending (start : StartReads) : (s.proceed start).pending = s.pending := rfl

@[simp] theorem clearEvents_ltu : (s.clearEvents).ltu = s.ltu := rfl
@[simp] theorem clearEvents_sbs : (s.clearEvents).sbs = s.sbs := rfl
@[simp] theorem clearEvents_mku : (s.clearEvents).mku = s.mku := rfl
@[simp] theorem clearEvents_asc : (s.clearEvents).asc = s.asc := rfl
@[simp] theorem clearEvents_dcu : (s.clearEvents).dcu = s.dcu := rfl
@[simp] theorem clearEvents_tvu : (s.clearEvents).tvu = s.tvu := rfl
@[simp] theorem clearEvents_llu : (s.clearEvents).llu = s.llu := rfl
@[simp] theorem clearEvents_lpi : (s.clearEvents).lpi = s.lpi := rfl
@[simp] theorem clearEvents_srh : (s.clearEvents).srh = s.srh := rfl
@[simp] theorem clearEvents_cfl : (s.clearEvents).cfl = s.cfl := rfl
@[simp] theorem clearEvents_pending : (s.clearEvents).pending = s.pending := rfl

@[simp] theorem shadowLoad_ltu : (s.shadowLoad).ltu = s.ltu := rfl
@[simp] theorem shadowLoad_mku : (s.shadowLoad).mku = s.mku := rfl
@[simp] theorem shadowLoad_asc : (s.shadowLoad).asc = s.asc := rfl
@[simp] theorem shadowLoad_dcu : (s.shadowLoad).dcu = s.dcu := rfl
@[simp] theorem shadowLoad_tvu : (s.shadowLoad).tvu = s.tvu := rfl
@[simp] theorem shadowLoad_llu : (s.shadowLoad).llu = s.llu := rfl
@[simp] theorem shadowLoad_lpi : (s.shadowLoad).lpi = s.lpi := rfl
@[simp] theorem shadowLoad_fru : (s.shadowLoad).fru = s.fru := rfl
@[simp] theorem shadowLoad_srh : (s.shadowLoad).srh = s.srh := rfl
@[simp] theorem shadowLoad_cfl : (s.shadowLoad).cfl = s.cfl := rfl
@[simp] theorem shadowLoad_pending : (s.shadowLoad).pending = s.pending := rfl

@[simp] theorem historyRestart_ltu (c : Word) : (s.historyRestart c).ltu = s.ltu := rfl
@[simp] theorem historyRestart_sbs (c : Word) : (s.historyRestart c).sbs = s.sbs := rfl
@[simp] theorem historyRestart_mku (c : Word) : (s.historyRestart c).mku = s.mku := rfl
@[simp] theorem historyRestart_asc (c : Word) : (s.historyRestart c).asc = s.asc := rfl
@[simp] theorem historyRestart_dcu (c : Word) : (s.historyRestart c).dcu = s.dcu := rfl
@[simp] theorem historyRestart_llu (c : Word) : (s.historyRestart c).llu = s.llu := rfl
@[simp] theorem historyRestart_lpi (c : Word) : (s.historyRestart c).lpi = s.lpi := rfl
@[simp] theorem historyRestart_fru (c : Word) : (s.historyRestart c).fru = s.fru := rfl
@[simp] theorem historyRestart_srh (c : Word) : (s.historyRestart c).srh = s.srh := rfl
@[simp] theorem historyRestart_cfl (c : Word) : (s.historyRestart c).cfl = s.cfl := rfl
@[simp] theorem historyRestart_pending (c : Word) : (s.historyRestart c).pending = s.pending := rfl

@[simp] theorem shiftTimeSchedule_ltu (k : Nat) : (s.shiftTimeSchedule k).ltu = s.ltu := rfl
@[simp] theorem shiftTimeSchedule_sbs (k : Nat) : (s.shiftTimeSchedule k).sbs = s.sbs := rfl
@[simp] theorem shiftTimeSchedule_mku (k : Nat) : (s.shiftTimeSchedule k).mku = s.mku := rfl
@[simp] theorem shiftTimeSchedule_dcu (k : Nat) : (s.shiftTimeSchedule k).dcu = s.dcu := rfl
@[simp] theorem shiftTimeSchedule_tvu (k : Nat) : (s.shiftTimeSchedule k).tvu = s.tvu := rfl
@[simp] theorem shiftTimeSchedule_llu (k : Nat) : (s.shiftTimeSchedule k).llu = s.llu := rfl
@[simp] theorem shiftTimeSchedule_lpi (k : Nat) : (s.shiftTimeSchedule k).lpi = s.lpi := rfl
@[simp] theorem shiftTimeSchedule_fru (k : Nat) : (s.shiftTimeSchedule k).fru = s.fru := rfl
@[simp] theorem shiftTimeSchedule_srh (k : Nat) : (s.shiftTimeSchedule k).srh = s.srh := rfl
@[simp] theorem shiftTimeSchedule_cfl (k : Nat) : (s.shiftTimeSchedule k).cfl = s.cfl := rfl
@[simp] theorem shiftTimeSchedule_pending (k : Nat) : (s.shiftTimeSchedule k).pending = s.pending := rfl

@[simp] theorem rebaseTravelSchedule_ltu (x : Word) : (s.rebaseTravelSchedule x).ltu = s.ltu := rfl
@[simp] theorem rebaseTravelSchedule_sbs (x : Word) : (s.rebaseTravelSchedule x).sbs = s.sbs := rfl
@[simp] theorem rebaseTravelSchedule_mku (x : Word) : (s.rebaseTravelSchedule x).mku = s.mku := rfl
@[simp] theorem rebaseTravelSchedule_dcu (x : Word) : (s.rebaseTravelSchedule x).dcu = s.dcu := rfl
@[simp] theorem rebaseTravelSchedule_tvu (x : Word) : (s.rebaseTravelSchedule x).tvu = s.tvu := rfl
@[simp] theorem rebaseTravelSchedule_llu (x : Word) : (s.rebaseTravelSchedule x).llu = s.llu := rfl
@[simp] theorem rebaseTravelSchedule_lpi (x : Word) : (s.rebaseTravelSchedule x).lpi = s.lpi := rfl
@[simp] theorem rebaseTravelSchedule_fru (x : Word) : (s.rebaseTravelSchedule x).fru = s.fru := rfl
@[simp] theorem rebaseTravelSchedule_srh (x : Word) : (s.rebaseTravelSchedule x).srh = s.srh := rfl
@[simp] theorem rebaseTravelSchedule_cfl (x : Word) : (s.rebaseTravelSchedule x).cfl = s.cfl := rfl
@[simp] theorem rebaseTravelSchedule_pending (x : Word) : (s.rebaseTravelSchedule x).pending = s.pending := rfl

@[simp] theorem shiftQueue_ltu (k : Nat) : (s.shiftQueue k).ltu = s.ltu := rfl
@[simp] theorem shiftQueue_sbs (k : Nat) : (s.shiftQueue k).sbs = s.sbs := rfl
@[simp] theorem shiftQueue_asc (k : Nat) : (s.shiftQueue k).asc = s.asc := rfl
@[simp] theorem shiftQueue_dcu (k : Nat) : (s.shiftQueue k).dcu = s.dcu := rfl
@[simp] theorem shiftQueue_tvu (k : Nat) : (s.shiftQueue k).tvu = s.tvu := rfl
@[simp] theorem shiftQueue_llu (k : Nat) : (s.shiftQueue k).llu = s.llu := rfl
@[simp] theorem shiftQueue_lpi (k : Nat) : (s.shiftQueue k).lpi = s.lpi := rfl
@[simp] theorem shiftQueue_fru (k : Nat) : (s.shiftQueue k).fru = s.fru := rfl
@[simp] theorem shiftQueue_srh (k : Nat) : (s.shiftQueue k).srh = s.srh := rfl
@[simp] theorem shiftQueue_cfl (k : Nat) : (s.shiftQueue k).cfl = s.cfl := rfl
@[simp] theorem shiftQueue_pending (k : Nat) : (s.shiftQueue k).pending = s.pending := rfl

@[simp] theorem advanceBit_ltu : (s.advanceBit).ltu = s.ltu := rfl
@[simp] theorem advanceBit_sbs : (s.advanceBit).sbs = s.sbs := rfl
@[simp] theorem advanceBit_mku : (s.advanceBit).mku = s.mku := rfl
@[simp] theorem advanceBit_asc : (s.advanceBit).asc = s.asc := rfl
@[simp] theorem advanceBit_dcu : (s.advanceBit).dcu = s.dcu := rfl
@[simp] theorem advanceBit_tvu : (s.advanceBit).tvu = s.tvu := rfl
@[simp] theorem advanceBit_llu : (s.advanceBit).llu = s.llu := rfl
@[simp] theorem advanceBit_fru : (s.advanceBit).fru = s.fru := rfl
@[simp] theorem advanceBit_srh : (s.advanceBit).srh = s.srh := rfl
@[simp] theorem advanceBit_cfl : (s.advanceBit).cfl = s.cfl := rfl
@[simp] theorem advanceBit_pending : (s.advanceBit).pending = s.pending := rfl

@[simp] theorem readTo_lpi (k : Nat) : (s.readTo k).lpi = s.lpi := rfl
@[simp] theorem readTo_ltu (k : Nat) : (s.readTo k).ltu = s.ltu := rfl
@[simp] theorem readTo_sbs (k : Nat) : (s.readTo k).sbs = s.sbs := rfl
@[simp] theorem readTo_mku (k : Nat) : (s.readTo k).mku = s.mku := rfl
@[simp] theorem readTo_asc (k : Nat) : (s.readTo k).asc = s.asc := rfl
@[simp] theorem readTo_dcu (k : Nat) : (s.readTo k).dcu = s.dcu := rfl
@[simp] theorem readTo_tvu (k : Nat) : (s.readTo k).tvu = s.tvu := rfl
@[simp] theorem readTo_llu (k : Nat) : (s.readTo k).llu = s.llu := rfl
@[simp] theorem readTo_fru (k : Nat) : (s.readTo k).fru = s.fru := rfl
@[simp] theorem readTo_srh (k : Nat) : (s.readTo k).srh = s.srh := rfl
@[simp] theorem readTo_pending (k : Nat) : (s.readTo k).pending = s.pending := rfl

@[simp] theorem readOut_ltu (k : Nat) : (s.readOut k).ltu = s.ltu := rfl
@[simp] theorem readOut_sbs (k : Nat) : (s.readOut k).sbs = s.sbs := rfl
@[simp] theorem readOut_mku (k : Nat) : (s.readOut k).mku = s.mku := rfl
@[simp] theorem readOut_asc (k : Nat) : (s.readOut k).asc = s.asc := rfl
@[simp] theorem readOut_dcu (k : Nat) : (s.readOut k).dcu = s.dcu := rfl
@[simp] theorem readOut_tvu (k : Nat) : (s.readOut k).tvu = s.tvu := rfl
@[simp] theorem readOut_llu (k : Nat) : (s.readOut k).llu = s.llu := rfl
@[simp] theorem readOut_fru (k : Nat) : (s.readOut k).fru = s.fru := rfl
@[simp] theorem readOut_srh (k : Nat) : (s.readOut k).srh = s.srh := rfl
@[simp] theorem readOut_pending (k : Nat) : (s.readOut k).pending = s.pending := rfl

@[simp] theorem readTick_ltu : (s.readTick).ltu = s.ltu := by unfold State.readTick; split <;> rfl
@[simp] theorem readTick_sbs : (s.readTick).sbs = s.sbs := by unfold State.readTick; split <;> rfl
@[simp] theorem readTick_mku : (s.readTick).mku = s.mku := by unfold State.readTick; split <;> rfl
@[simp] theorem readTick_asc : (s.readTick).asc = s.asc := by unfold State.readTick; split <;> rfl
@[simp] theorem readTick_dcu : (s.readTick).dcu = s.dcu := by unfold State.readTick; split <;> rfl
@[simp] theorem readTick_tvu : (s.readTick).tvu = s.tvu := by unfold State.readTick; split <;> rfl
@[simp] theorem readTick_llu : (s.readTick).llu = s.llu := by unfold State.readTick; split <;> rfl
@[simp] theorem readTick_lpi : (s.readTick).lpi = s.lpi := by unfold State.readTick; split <;> rfl
@[simp] theorem readTick_fru : (s.readTick).fru = s.fru := by unfold State.readTick; split <;> rfl
@[simp] theorem readTick_srh : (s.readTick).srh = s.srh := by unfold State.readTick; split <;> rfl
@[simp] theorem readTick_pending : (s.readTick).pending = s.pending := by unfold State.readTick; split <;> rfl

@[simp] theorem clearMarks_sbs : (s.clearMarks).sbs = s.sbs := rfl
@[simp] theorem clearMarks_mku : (s.clearMarks).mku = s.mku := rfl
@[simp] theorem clearMarks_asc : (s.clearMarks).asc = s.asc := rfl
@[simp] theorem clearMarks_tvu : (s.clearMarks).tvu = s.tvu := rfl
@[simp] theorem clearMarks_lpi : (s.clearMarks).lpi = s.lpi := rfl
@[simp] theorem clearMarks_fru : (s.clearMarks).fru = s.fru := rfl
@[simp] theorem clearMarks_srh : (s.clearMarks).srh = s.srh := rfl
@[simp] theorem clearMarks_cfl : (s.clearMarks).cfl = s.cfl := rfl
@[simp] theorem clearMarks_pending : (s.clearMarks).pending = s.pending := rfl

@[simp] theorem refreshLines_ltu : (s.refreshLines).ltu = s.ltu := rfl
@[simp] theorem refreshLines_sbs : (s.refreshLines).sbs = s.sbs := rfl
@[simp] theorem refreshLines_mku : (s.refreshLines).mku = s.mku := rfl
@[simp] theorem refreshLines_asc : (s.refreshLines).asc = s.asc := rfl
@[simp] theorem refreshLines_dcu : (s.refreshLines).dcu = s.dcu := rfl
@[simp] theorem refreshLines_tvu : (s.refreshLines).tvu = s.tvu := rfl
@[simp] theorem refreshLines_lpi : (s.refreshLines).lpi = s.lpi := rfl
@[simp] theorem refreshLines_fru : (s.refreshLines).fru = s.fru := rfl
@[simp] theorem refreshLines_srh : (s.refreshLines).srh = s.srh := rfl
@[simp] theorem refreshLines_cfl : (s.refreshLines).cfl = s.cfl := rfl
@[simp] theorem refreshLines_pending : (s.refreshLines).pending = s.pending := rfl

/-! ### One line after an update -/

/-- The lines after an update of line `n`. -/
theorem line_mapLine (n m : LineId) (f : LocalLine → LocalLine) :
    (s.mapLine n f).line m = if m = n then f (s.line n) else s.line m := Table.get_modify _ _ _ _

@[simp] theorem line_mapLine_self (n : LineId) (f : LocalLine → LocalLine) :
    (s.mapLine n f).line n = f (s.line n) := Table.get_modify_self _ _ _

theorem line_mapLine_ne {n m : LineId} (f : LocalLine → LocalLine) (h : m ≠ n) :
    (s.mapLine n f).line m = s.line m := Table.get_modify_ne _ _ h

@[simp] theorem line_mapLines (n : LineId) (f : LocalLine → LocalLine) :
    (s.mapLines f).line n = f (s.line n) := Table.get_map _ _ _

/-- The drive claims after an update of line `n`. -/
theorem drive_mapDrive (n m : LineId) (f : DriveLine → DriveLine) :
    (s.mapDrive n f).drive m = if m = n then f (s.drive n) else s.drive m := Table.get_modify _ _ _ _

@[simp] theorem drive_mapDrive_self (n : LineId) (f : DriveLine → DriveLine) :
    (s.mapDrive n f).drive n = f (s.drive n) := Table.get_modify_self _ _ _

theorem drive_mapDrive_ne {n m : LineId} (f : DriveLine → DriveLine) (h : m ≠ n) :
    (s.mapDrive n f).drive m = s.drive m := Table.get_modify_ne _ _ h

@[simp] theorem entry_mapEntry_self (i : Fin 64) (f : Entry → Entry) :
    (s.mapEntry i f).entry i = f (s.entry i) := Table.get_modify_self _ _ _

theorem entry_mapEntry_ne {i j : Fin 64} (f : Entry → Entry) (h : j ≠ i) :
    (s.mapEntry i f).entry j = s.entry j := Table.get_modify_ne _ _ h

end Sys2Proof.Machine.State
end

