-- ==== Sys2Proof/Laws/Frames.lean ====
section
/-! SUPPORT. What each operation of the blocks leaves unchanged: one lemma for each block that the operation does not touch. -/

/-- R143: the arbitration field is the first nine bits. -/
theorem Sys2Proof.Machine.Transmission.arbitrates_iff (t : Sys2Proof.Machine.Transmission) :
    t.arbitrates = true ↔ t.bit < 9 := by
  unfold Sys2Proof.Machine.Transmission.arbitrates Sys2Proof.Config.arbitrationBits
  exact decide_eq_true_iff

namespace Sys2Proof.Machine.State

variable (s : State)

theorem sequenceTest_ltu (i : Fin 64) (q : Byte) (t : State) (h : s.sequenceTest i q = some t) : t.ltu = s.ltu := by
  unfold sequenceTest at h
  split at h
  · cases h; rfl
  · split at h
    · cases h
    · split at h <;> (cases h; rfl)
theorem sequenceTest_mku (i : Fin 64) (q : Byte) (t : State) (h : s.sequenceTest i q = some t) : t.mku = s.mku := by
  unfold sequenceTest at h
  split at h
  · cases h; rfl
  · split at h
    · cases h
    · split at h <;> (cases h; rfl)
theorem sequenceTest_asc (i : Fin 64) (q : Byte) (t : State) (h : s.sequenceTest i q = some t) : t.asc = s.asc := by
  unfold sequenceTest at h
  split at h
  · cases h; rfl
  · split at h
    · cases h
    · split at h <;> (cases h; rfl)
theorem sequenceTest_dcu (i : Fin 64) (q : Byte) (t : State) (h : s.sequenceTest i q = some t) : t.dcu = s.dcu := by
  unfold sequenceTest at h
  split at h
  · cases h; rfl
  · split at h
    · cases h
    · split at h <;> (cases h; rfl)
theorem sequenceTest_tvu (i : Fin 64) (q : Byte) (t : State) (h : s.sequenceTest i q = some t) : t.tvu = s.tvu := by
  unfold sequenceTest at h
  split at h
  · cases h; rfl
  · split at h
    · cases h
    · split at h <;> (cases h; rfl)
theorem sequenceTest_llu (i : Fin 64) (q : Byte) (t : State) (h : s.sequenceTest i q = some t) : t.llu = s.llu := by
  unfold sequenceTest at h
  split at h
  · cases h; rfl
  · split at h
    · cases h
    · split at h <;> (cases h; rfl)
theorem sequenceTest_lpi (i : Fin 64) (q : Byte) (t : State) (h : s.sequenceTest i q = some t) : t.lpi = s.lpi := by
  unfold sequenceTest at h
  split at h
  · cases h; rfl
  · split at h
    · cases h
    · split at h <;> (cases h; rfl)
theorem sequenceTest_srh (i : Fin 64) (q : Byte) (t : State) (h : s.sequenceTest i q = some t) : t.srh = s.srh := by
  unfold sequenceTest at h
  split at h
  · cases h; rfl
  · split at h
    · cases h
    · split at h <;> (cases h; rfl)
theorem sequenceTest_cfl (i : Fin 64) (q : Byte) (t : State) (h : s.sequenceTest i q = some t) : t.cfl = s.cfl := by
  unfold sequenceTest at h
  split at h
  · cases h; rfl
  · split at h
    · cases h
    · split at h <;> (cases h; rfl)
theorem sequenceTest_pending (i : Fin 64) (q : Byte) (t : State) (h : s.sequenceTest i q = some t) : t.pending = s.pending := by
  unfold sequenceTest at h
  split at h
  · cases h; rfl
  · split at h
    · cases h
    · split at h <;> (cases h; rfl)

@[simp] theorem timePass_ltu : (s.timePass).ltu = s.ltu := rfl
@[simp] theorem timePass_sbs : (s.timePass).sbs = s.sbs := rfl
@[simp] theorem timePass_mku : (s.timePass).mku = s.mku := rfl
@[simp] theorem timePass_tvu : (s.timePass).tvu = s.tvu := rfl
@[simp] theorem timePass_llu : (s.timePass).llu = s.llu := rfl
@[simp] theorem timePass_lpi : (s.timePass).lpi = s.lpi := rfl
@[simp] theorem timePass_fru : (s.timePass).fru = s.fru := rfl
@[simp] theorem timePass_srh : (s.timePass).srh = s.srh := rfl
@[simp] theorem timePass_cfl : (s.timePass).cfl = s.cfl := rfl
@[simp] theorem timePass_pending : (s.timePass).pending = s.pending := rfl

@[simp] theorem travelPass_ltu : (s.travelPass).ltu = s.ltu := rfl
@[simp] theorem travelPass_sbs : (s.travelPass).sbs = s.sbs := rfl
@[simp] theorem travelPass_mku : (s.travelPass).mku = s.mku := rfl
@[simp] theorem travelPass_tvu : (s.travelPass).tvu = s.tvu := rfl
@[simp] theorem travelPass_llu : (s.travelPass).llu = s.llu := rfl
@[simp] theorem travelPass_lpi : (s.travelPass).lpi = s.lpi := rfl
@[simp] theorem travelPass_fru : (s.travelPass).fru = s.fru := rfl
@[simp] theorem travelPass_srh : (s.travelPass).srh = s.srh := rfl
@[simp] theorem travelPass_cfl : (s.travelPass).cfl = s.cfl := rfl
@[simp] theorem travelPass_pending : (s.travelPass).pending = s.pending := rfl

@[simp] theorem cancelWhere_ltu (w : HeldSet → Bool) : (s.cancelWhere w).ltu = s.ltu := rfl
@[simp] theorem cancelWhere_sbs (w : HeldSet → Bool) : (s.cancelWhere w).sbs = s.sbs := rfl
@[simp] theorem cancelWhere_mku (w : HeldSet → Bool) : (s.cancelWhere w).mku = s.mku := rfl
@[simp] theorem cancelWhere_tvu (w : HeldSet → Bool) : (s.cancelWhere w).tvu = s.tvu := rfl
@[simp] theorem cancelWhere_llu (w : HeldSet → Bool) : (s.cancelWhere w).llu = s.llu := rfl
@[simp] theorem cancelWhere_lpi (w : HeldSet → Bool) : (s.cancelWhere w).lpi = s.lpi := rfl
@[simp] theorem cancelWhere_fru (w : HeldSet → Bool) : (s.cancelWhere w).fru = s.fru := rfl
@[simp] theorem cancelWhere_srh (w : HeldSet → Bool) : (s.cancelWhere w).srh = s.srh := rfl
@[simp] theorem cancelWhere_cfl (w : HeldSet → Bool) : (s.cancelWhere w).cfl = s.cfl := rfl
@[simp] theorem cancelWhere_pending (w : HeldSet → Bool) : (s.cancelWhere w).pending = s.pending := rfl

@[simp] theorem cancelByLine_ltu (n : LineId) : (s.cancelByLine n).ltu = s.ltu := rfl
@[simp] theorem cancelByLine_sbs (n : LineId) : (s.cancelByLine n).sbs = s.sbs := rfl
@[simp] theorem cancelByLine_mku (n : LineId) : (s.cancelByLine n).mku = s.mku := rfl
@[simp] theorem cancelByLine_tvu (n : LineId) : (s.cancelByLine n).tvu = s.tvu := rfl
@[simp] theorem cancelByLine_llu (n : LineId) : (s.cancelByLine n).llu = s.llu := rfl
@[simp] theorem cancelByLine_lpi (n : LineId) : (s.cancelByLine n).lpi = s.lpi := rfl
@[simp] theorem cancelByLine_fru (n : LineId) : (s.cancelByLine n).fru = s.fru := rfl
@[simp] theorem cancelByLine_srh (n : LineId) : (s.cancelByLine n).srh = s.srh := rfl
@[simp] theorem cancelByLine_cfl (n : LineId) : (s.cancelByLine n).cfl = s.cfl := rfl
@[simp] theorem cancelByLine_pending (n : LineId) : (s.cancelByLine n).pending = s.pending := rfl

@[simp] theorem cancelAll_ltu : (s.cancelAll).ltu = s.ltu := rfl
@[simp] theorem cancelAll_sbs : (s.cancelAll).sbs = s.sbs := rfl
@[simp] theorem cancelAll_mku : (s.cancelAll).mku = s.mku := rfl
@[simp] theorem cancelAll_tvu : (s.cancelAll).tvu = s.tvu := rfl
@[simp] theorem cancelAll_llu : (s.cancelAll).llu = s.llu := rfl
@[simp] theorem cancelAll_lpi : (s.cancelAll).lpi = s.lpi := rfl
@[simp] theorem cancelAll_fru : (s.cancelAll).fru = s.fru := rfl
@[simp] theorem cancelAll_srh : (s.cancelAll).srh = s.srh := rfl
@[simp] theorem cancelAll_cfl : (s.cancelAll).cfl = s.cfl := rfl
@[simp] theorem cancelAll_pending : (s.cancelAll).pending = s.pending := rfl

@[simp] theorem forcedRelease_ltu (n : LineId) : (s.forcedRelease n).ltu = s.ltu := rfl
@[simp] theorem forcedRelease_sbs (n : LineId) : (s.forcedRelease n).sbs = s.sbs := rfl
@[simp] theorem forcedRelease_mku (n : LineId) : (s.forcedRelease n).mku = s.mku := rfl
@[simp] theorem forcedRelease_tvu (n : LineId) : (s.forcedRelease n).tvu = s.tvu := rfl
@[simp] theorem forcedRelease_llu (n : LineId) : (s.forcedRelease n).llu = s.llu := rfl
@[simp] theorem forcedRelease_lpi (n : LineId) : (s.forcedRelease n).lpi = s.lpi := rfl
@[simp] theorem forcedRelease_srh (n : LineId) : (s.forcedRelease n).srh = s.srh := rfl
@[simp] theorem forcedRelease_cfl (n : LineId) : (s.forcedRelease n).cfl = s.cfl := rfl
@[simp] theorem forcedRelease_pending (n : LineId) : (s.forcedRelease n).pending = s.pending := rfl

@[simp] theorem expireOnTime_ltu (n : LineId) : (s.expireOnTime n).ltu = s.ltu := rfl
@[simp] theorem expireOnTime_sbs (n : LineId) : (s.expireOnTime n).sbs = s.sbs := rfl
@[simp] theorem expireOnTime_mku (n : LineId) : (s.expireOnTime n).mku = s.mku := rfl
@[simp] theorem expireOnTime_tvu (n : LineId) : (s.expireOnTime n).tvu = s.tvu := rfl
@[simp] theorem expireOnTime_llu (n : LineId) : (s.expireOnTime n).llu = s.llu := rfl
@[simp] theorem expireOnTime_lpi (n : LineId) : (s.expireOnTime n).lpi = s.lpi := rfl
@[simp] theorem expireOnTime_srh (n : LineId) : (s.expireOnTime n).srh = s.srh := rfl
@[simp] theorem expireOnTime_cfl (n : LineId) : (s.expireOnTime n).cfl = s.cfl := rfl
@[simp] theorem expireOnTime_pending (n : LineId) : (s.expireOnTime n).pending = s.pending := rfl

@[simp] theorem refuseMissed_ltu : (s.refuseMissed).ltu = s.ltu := rfl
@[simp] theorem refuseMissed_sbs : (s.refuseMissed).sbs = s.sbs := rfl
@[simp] theorem refuseMissed_mku : (s.refuseMissed).mku = s.mku := rfl
@[simp] theorem refuseMissed_asc : (s.refuseMissed).asc = s.asc := rfl
@[simp] theorem refuseMissed_dcu : (s.refuseMissed).dcu = s.dcu := rfl
@[simp] theorem refuseMissed_tvu : (s.refuseMissed).tvu = s.tvu := rfl
@[simp] theorem refuseMissed_llu : (s.refuseMissed).llu = s.llu := rfl
@[simp] theorem refuseMissed_lpi : (s.refuseMissed).lpi = s.lpi := rfl
@[simp] theorem refuseMissed_srh : (s.refuseMissed).srh = s.srh := rfl
@[simp] theorem refuseMissed_cfl : (s.refuseMissed).cfl = s.cfl := rfl
@[simp] theorem refuseMissed_pending : (s.refuseMissed).pending = s.pending := rfl

@[simp] theorem refuseNoSlot_ltu : (s.refuseNoSlot).ltu = s.ltu := rfl
@[simp] theorem refuseNoSlot_sbs : (s.refuseNoSlot).sbs = s.sbs := rfl
@[simp] theorem refuseNoSlot_mku : (s.refuseNoSlot).mku = s.mku := rfl
@[simp] theorem refuseNoSlot_asc : (s.refuseNoSlot).asc = s.asc := rfl
@[simp] theorem refuseNoSlot_dcu : (s.refuseNoSlot).dcu = s.dcu := rfl
@[simp] theorem refuseNoSlot_tvu : (s.refuseNoSlot).tvu = s.tvu := rfl
@[simp] theorem refuseNoSlot_llu : (s.refuseNoSlot).llu = s.llu := rfl
@[simp] theorem refuseNoSlot_lpi : (s.refuseNoSlot).lpi = s.lpi := rfl
@[simp] theorem refuseNoSlot_srh : (s.refuseNoSlot).srh = s.srh := rfl
@[simp] theorem refuseNoSlot_cfl : (s.refuseNoSlot).cfl = s.cfl := rfl
@[simp] theorem refuseNoSlot_pending : (s.refuseNoSlot).pending = s.pending := rfl

@[simp] theorem admitTime_ltu (d : Instant) (k : Fin 16) : (s.admitTime d k).ltu = s.ltu := by
  unfold admitTime
  repeat' split
  all_goals rfl
@[simp] theorem admitTime_sbs (d : Instant) (k : Fin 16) : (s.admitTime d k).sbs = s.sbs := by
  unfold admitTime
  repeat' split
  all_goals rfl
@[simp] theorem admitTime_mku (d : Instant) (k : Fin 16) : (s.admitTime d k).mku = s.mku := by
  unfold admitTime
  repeat' split
  all_goals rfl
@[simp] theorem admitTime_tvu (d : Instant) (k : Fin 16) : (s.admitTime d k).tvu = s.tvu := by
  unfold admitTime
  repeat' split
  all_goals rfl
@[simp] theorem admitTime_llu (d : Instant) (k : Fin 16) : (s.admitTime d k).llu = s.llu := by
  unfold admitTime
  repeat' split
  all_goals rfl
@[simp] theorem admitTime_lpi (d : Instant) (k : Fin 16) : (s.admitTime d k).lpi = s.lpi := by
  unfold admitTime
  repeat' split
  all_goals rfl
@[simp] theorem admitTime_srh (d : Instant) (k : Fin 16) : (s.admitTime d k).srh = s.srh := by
  unfold admitTime
  repeat' split
  all_goals rfl
@[simp] theorem admitTime_cfl (d : Instant) (k : Fin 16) : (s.admitTime d k).cfl = s.cfl := by
  unfold admitTime
  repeat' split
  all_goals rfl
@[simp] theorem admitTime_pending (d : Instant) (k : Fin 16) : (s.admitTime d k).pending = s.pending := by
  unfold admitTime
  repeat' split
  all_goals rfl

@[simp] theorem admitTravel_ltu (d : Word) (k : Fin 16) : (s.admitTravel d k).ltu = s.ltu := by
  unfold admitTravel
  repeat' split
  all_goals rfl
@[simp] theorem admitTravel_sbs (d : Word) (k : Fin 16) : (s.admitTravel d k).sbs = s.sbs := by
  unfold admitTravel
  repeat' split
  all_goals rfl
@[simp] theorem admitTravel_mku (d : Word) (k : Fin 16) : (s.admitTravel d k).mku = s.mku := by
  unfold admitTravel
  repeat' split
  all_goals rfl
@[simp] theorem admitTravel_tvu (d : Word) (k : Fin 16) : (s.admitTravel d k).tvu = s.tvu := by
  unfold admitTravel
  repeat' split
  all_goals rfl
@[simp] theorem admitTravel_llu (d : Word) (k : Fin 16) : (s.admitTravel d k).llu = s.llu := by
  unfold admitTravel
  repeat' split
  all_goals rfl
@[simp] theorem admitTravel_lpi (d : Word) (k : Fin 16) : (s.admitTravel d k).lpi = s.lpi := by
  unfold admitTravel
  repeat' split
  all_goals rfl
@[simp] theorem admitTravel_srh (d : Word) (k : Fin 16) : (s.admitTravel d k).srh = s.srh := by
  unfold admitTravel
  repeat' split
  all_goals rfl
@[simp] theorem admitTravel_cfl (d : Word) (k : Fin 16) : (s.admitTravel d k).cfl = s.cfl := by
  unfold admitTravel
  repeat' split
  all_goals rfl
@[simp] theorem admitTravel_pending (d : Word) (k : Fin 16) : (s.admitTravel d k).pending = s.pending := by
  unfold admitTravel
  repeat' split
  all_goals rfl

@[simp] theorem tailTest_ltu : (s.tailTest).ltu = s.ltu := by
  unfold tailTest
  repeat' split
  all_goals rfl
@[simp] theorem tailTest_sbs : (s.tailTest).sbs = s.sbs := by
  unfold tailTest
  repeat' split
  all_goals rfl
@[simp] theorem tailTest_mku : (s.tailTest).mku = s.mku := by
  unfold tailTest
  repeat' split
  all_goals rfl
@[simp] theorem tailTest_dcu : (s.tailTest).dcu = s.dcu := by
  unfold tailTest
  repeat' split
  all_goals rfl
@[simp] theorem tailTest_tvu : (s.tailTest).tvu = s.tvu := by
  unfold tailTest
  repeat' split
  all_goals rfl
@[simp] theorem tailTest_llu : (s.tailTest).llu = s.llu := by
  unfold tailTest
  repeat' split
  all_goals rfl
@[simp] theorem tailTest_lpi : (s.tailTest).lpi = s.lpi := by
  unfold tailTest
  repeat' split
  all_goals rfl
@[simp] theorem tailTest_fru : (s.tailTest).fru = s.fru := by
  unfold tailTest
  repeat' split
  all_goals rfl
@[simp] theorem tailTest_srh : (s.tailTest).srh = s.srh := by
  unfold tailTest
  repeat' split
  all_goals rfl
@[simp] theorem tailTest_cfl : (s.tailTest).cfl = s.cfl := by
  unfold tailTest
  repeat' split
  all_goals rfl
@[simp] theorem tailTest_pending : (s.tailTest).pending = s.pending := by
  unfold tailTest
  repeat' split
  all_goals rfl

@[simp] theorem countChange_ltu (d : CountChange) : (s.countChange d).ltu = s.ltu := by
  unfold countChange
  repeat' split
  all_goals simp
@[simp] theorem countChange_sbs (d : CountChange) : (s.countChange d).sbs = s.sbs := by
  unfold countChange
  repeat' split
  all_goals simp
@[simp] theorem countChange_mku (d : CountChange) : (s.countChange d).mku = s.mku := by
  unfold countChange
  repeat' split
  all_goals simp
@[simp] theorem countChange_llu (d : CountChange) : (s.countChange d).llu = s.llu := by
  unfold countChange
  repeat' split
  all_goals simp
@[simp] theorem countChange_lpi (d : CountChange) : (s.countChange d).lpi = s.lpi := by
  unfold countChange
  repeat' split
  all_goals simp
@[simp] theorem countChange_fru (d : CountChange) : (s.countChange d).fru = s.fru := by
  unfold countChange
  repeat' split
  all_goals simp
@[simp] theorem countChange_srh (d : CountChange) : (s.countChange d).srh = s.srh := by
  unfold countChange
  repeat' split
  all_goals simp
@[simp] theorem countChange_cfl (d : CountChange) : (s.countChange d).cfl = s.cfl := by
  unfold countChange
  repeat' split
  all_goals simp
@[simp] theorem countChange_pending (d : CountChange) : (s.countChange d).pending = s.pending := by
  unfold countChange
  repeat' split
  all_goals simp

@[simp] theorem historyAppend_ltu (c : Word) : (s.historyAppend c).ltu = s.ltu := by
  unfold historyAppend
  repeat' split
  all_goals rfl
@[simp] theorem historyAppend_sbs (c : Word) : (s.historyAppend c).sbs = s.sbs := by
  unfold historyAppend
  repeat' split
  all_goals rfl
@[simp] theorem historyAppend_mku (c : Word) : (s.historyAppend c).mku = s.mku := by
  unfold historyAppend
  repeat' split
  all_goals rfl
@[simp] theorem historyAppend_asc (c : Word) : (s.historyAppend c).asc = s.asc := by
  unfold historyAppend
  repeat' split
  all_goals rfl
@[simp] theorem historyAppend_dcu (c : Word) : (s.historyAppend c).dcu = s.dcu := by
  unfold historyAppend
  repeat' split
  all_goals rfl
@[simp] theorem historyAppend_llu (c : Word) : (s.historyAppend c).llu = s.llu := by
  unfold historyAppend
  repeat' split
  all_goals rfl
@[simp] theorem historyAppend_lpi (c : Word) : (s.historyAppend c).lpi = s.lpi := by
  unfold historyAppend
  repeat' split
  all_goals rfl
@[simp] theorem historyAppend_fru (c : Word) : (s.historyAppend c).fru = s.fru := by
  unfold historyAppend
  repeat' split
  all_goals rfl
@[simp] theorem historyAppend_srh (c : Word) : (s.historyAppend c).srh = s.srh := by
  unfold historyAppend
  repeat' split
  all_goals rfl
@[simp] theorem historyAppend_cfl (c : Word) : (s.historyAppend c).cfl = s.cfl := by
  unfold historyAppend
  repeat' split
  all_goals rfl
@[simp] theorem historyAppend_pending (c : Word) : (s.historyAppend c).pending = s.pending := by
  unfold historyAppend
  repeat' split
  all_goals rfl

@[simp] theorem rebaseRecords_ltu (x : Word) : (s.rebaseRecords x).ltu = s.ltu := rfl
@[simp] theorem rebaseRecords_sbs (x : Word) : (s.rebaseRecords x).sbs = s.sbs := rfl
@[simp] theorem rebaseRecords_mku (x : Word) : (s.rebaseRecords x).mku = s.mku := rfl
@[simp] theorem rebaseRecords_asc (x : Word) : (s.rebaseRecords x).asc = s.asc := rfl
@[simp] theorem rebaseRecords_dcu (x : Word) : (s.rebaseRecords x).dcu = s.dcu := rfl
@[simp] theorem rebaseRecords_tvu (x : Word) : (s.rebaseRecords x).tvu = s.tvu := rfl
@[simp] theorem rebaseRecords_lpi (x : Word) : (s.rebaseRecords x).lpi = s.lpi := rfl
@[simp] theorem rebaseRecords_fru (x : Word) : (s.rebaseRecords x).fru = s.fru := rfl
@[simp] theorem rebaseRecords_srh (x : Word) : (s.rebaseRecords x).srh = s.srh := rfl
@[simp] theorem rebaseRecords_cfl (x : Word) : (s.rebaseRecords x).cfl = s.cfl := rfl
@[simp] theorem rebaseRecords_pending (x : Word) : (s.rebaseRecords x).pending = s.pending := rfl

@[simp] theorem zeroRebase_ltu : (s.zeroRebase).ltu = s.ltu := rfl
@[simp] theorem zeroRebase_sbs : (s.zeroRebase).sbs = s.sbs := rfl
@[simp] theorem zeroRebase_mku : (s.zeroRebase).mku = s.mku := rfl
@[simp] theorem zeroRebase_dcu : (s.zeroRebase).dcu = s.dcu := rfl
@[simp] theorem zeroRebase_lpi : (s.zeroRebase).lpi = s.lpi := rfl
@[simp] theorem zeroRebase_fru : (s.zeroRebase).fru = s.fru := rfl
@[simp] theorem zeroRebase_srh : (s.zeroRebase).srh = s.srh := rfl
@[simp] theorem zeroRebase_cfl : (s.zeroRebase).cfl = s.cfl := rfl
@[simp] theorem zeroRebase_pending : (s.zeroRebase).pending = s.pending := rfl

@[simp] theorem sawSequence_ltu (i : Fin 64) (q : Byte) : (s.sawSequence i q).ltu = s.ltu := rfl
@[simp] theorem sawSequence_mku (i : Fin 64) (q : Byte) : (s.sawSequence i q).mku = s.mku := rfl
@[simp] theorem sawSequence_asc (i : Fin 64) (q : Byte) : (s.sawSequence i q).asc = s.asc := rfl
@[simp] theorem sawSequence_dcu (i : Fin 64) (q : Byte) : (s.sawSequence i q).dcu = s.dcu := rfl
@[simp] theorem sawSequence_tvu (i : Fin 64) (q : Byte) : (s.sawSequence i q).tvu = s.tvu := rfl
@[simp] theorem sawSequence_llu (i : Fin 64) (q : Byte) : (s.sawSequence i q).llu = s.llu := rfl
@[simp] theorem sawSequence_lpi (i : Fin 64) (q : Byte) : (s.sawSequence i q).lpi = s.lpi := rfl
@[simp] theorem sawSequence_fru (i : Fin 64) (q : Byte) : (s.sawSequence i q).fru = s.fru := rfl
@[simp] theorem sawSequence_srh (i : Fin 64) (q : Byte) : (s.sawSequence i q).srh = s.srh := rfl
@[simp] theorem sawSequence_cfl (i : Fin 64) (q : Byte) : (s.sawSequence i q).cfl = s.cfl := rfl
@[simp] theorem sawSequence_pending (i : Fin 64) (q : Byte) : (s.sawSequence i q).pending = s.pending := rfl

@[simp] theorem requestFor_ltu (i : Fin 64) (c : Instant) (p : Option Word) : (s.requestFor i c p).ltu = s.ltu := by
  simp only [requestFor]
  repeat' split
  all_goals first | rfl | simp
@[simp] theorem requestFor_sbs (i : Fin 64) (c : Instant) (p : Option Word) : (s.requestFor i c p).sbs = s.sbs := by
  simp only [requestFor]
  repeat' split
  all_goals first | rfl | simp
@[simp] theorem requestFor_mku (i : Fin 64) (c : Instant) (p : Option Word) : (s.requestFor i c p).mku = s.mku := by
  simp only [requestFor]
  repeat' split
  all_goals first | rfl | simp
@[simp] theorem requestFor_tvu (i : Fin 64) (c : Instant) (p : Option Word) : (s.requestFor i c p).tvu = s.tvu := by
  simp only [requestFor]
  repeat' split
  all_goals first | rfl | simp
@[simp] theorem requestFor_llu (i : Fin 64) (c : Instant) (p : Option Word) : (s.requestFor i c p).llu = s.llu := by
  simp only [requestFor]
  repeat' split
  all_goals first | rfl | simp
@[simp] theorem requestFor_lpi (i : Fin 64) (c : Instant) (p : Option Word) : (s.requestFor i c p).lpi = s.lpi := by
  simp only [requestFor]
  repeat' split
  all_goals first | rfl | simp
@[simp] theorem requestFor_srh (i : Fin 64) (c : Instant) (p : Option Word) : (s.requestFor i c p).srh = s.srh := by
  simp only [requestFor]
  repeat' split
  all_goals first | rfl | simp
@[simp] theorem requestFor_cfl (i : Fin 64) (c : Instant) (p : Option Word) : (s.requestFor i c p).cfl = s.cfl := by
  simp only [requestFor]
  repeat' split
  all_goals first | rfl | simp
@[simp] theorem requestFor_pending (i : Fin 64) (c : Instant) (p : Option Word) : (s.requestFor i c p).pending = s.pending := by
  simp only [requestFor]
  repeat' split
  all_goals first | rfl | simp

@[simp] theorem processMark_ltu (a : Address) (ch : Fin 8) (q : Byte) (c : Instant) (p : State → Option Word) : (s.processMark a ch q c p).ltu = s.ltu := by
  unfold processMark
  split
  · rfl
  · split
    · rfl
    · split <;> simp [sequenceTest_ltu s _ _ _ ‹_›]
@[simp] theorem processMark_mku (a : Address) (ch : Fin 8) (q : Byte) (c : Instant) (p : State → Option Word) : (s.processMark a ch q c p).mku = s.mku := by
  unfold processMark
  split
  · rfl
  · split
    · rfl
    · split <;> simp [sequenceTest_mku s _ _ _ ‹_›]
@[simp] theorem processMark_tvu (a : Address) (ch : Fin 8) (q : Byte) (c : Instant) (p : State → Option Word) : (s.processMark a ch q c p).tvu = s.tvu := by
  unfold processMark
  split
  · rfl
  · split
    · rfl
    · split <;> simp [sequenceTest_tvu s _ _ _ ‹_›]
@[simp] theorem processMark_llu (a : Address) (ch : Fin 8) (q : Byte) (c : Instant) (p : State → Option Word) : (s.processMark a ch q c p).llu = s.llu := by
  unfold processMark
  split
  · rfl
  · split
    · rfl
    · split <;> simp [sequenceTest_llu s _ _ _ ‹_›]
@[simp] theorem processMark_lpi (a : Address) (ch : Fin 8) (q : Byte) (c : Instant) (p : State → Option Word) : (s.processMark a ch q c p).lpi = s.lpi := by
  unfold processMark
  split
  · rfl
  · split
    · rfl
    · split <;> simp [sequenceTest_lpi s _ _ _ ‹_›]
@[simp] theorem processMark_srh (a : Address) (ch : Fin 8) (q : Byte) (c : Instant) (p : State → Option Word) : (s.processMark a ch q c p).srh = s.srh := by
  unfold processMark
  split
  · rfl
  · split
    · rfl
    · split <;> simp [sequenceTest_srh s _ _ _ ‹_›]
@[simp] theorem processMark_cfl (a : Address) (ch : Fin 8) (q : Byte) (c : Instant) (p : State → Option Word) : (s.processMark a ch q c p).cfl = s.cfl := by
  unfold processMark
  split
  · rfl
  · split
    · rfl
    · split <;> simp [sequenceTest_cfl s _ _ _ ‹_›]
@[simp] theorem processMark_pending (a : Address) (ch : Fin 8) (q : Byte) (c : Instant) (p : State → Option Word) : (s.processMark a ch q c p).pending = s.pending := by
  unfold processMark
  split
  · rfl
  · split
    · rfl
    · split <;> simp [sequenceTest_pending s _ _ _ ‹_›]

@[simp] theorem receiveMark_ltu (a : Address) (ch : Fin 8) (q : Byte) (c p : Half) : (s.receiveMark a ch q c p).ltu = s.ltu := by
  unfold receiveMark
  repeat' split
  all_goals simp
@[simp] theorem receiveMark_mku (a : Address) (ch : Fin 8) (q : Byte) (c p : Half) : (s.receiveMark a ch q c p).mku = s.mku := by
  unfold receiveMark
  repeat' split
  all_goals simp
@[simp] theorem receiveMark_tvu (a : Address) (ch : Fin 8) (q : Byte) (c p : Half) : (s.receiveMark a ch q c p).tvu = s.tvu := by
  unfold receiveMark
  repeat' split
  all_goals simp
@[simp] theorem receiveMark_llu (a : Address) (ch : Fin 8) (q : Byte) (c p : Half) : (s.receiveMark a ch q c p).llu = s.llu := by
  unfold receiveMark
  repeat' split
  all_goals simp
@[simp] theorem receiveMark_lpi (a : Address) (ch : Fin 8) (q : Byte) (c p : Half) : (s.receiveMark a ch q c p).lpi = s.lpi := by
  unfold receiveMark
  repeat' split
  all_goals simp
@[simp] theorem receiveMark_srh (a : Address) (ch : Fin 8) (q : Byte) (c p : Half) : (s.receiveMark a ch q c p).srh = s.srh := by
  unfold receiveMark
  repeat' split
  all_goals simp
@[simp] theorem receiveMark_cfl (a : Address) (ch : Fin 8) (q : Byte) (c p : Half) : (s.receiveMark a ch q c p).cfl = s.cfl := by
  unfold receiveMark
  repeat' split
  all_goals simp
@[simp] theorem receiveMark_pending (a : Address) (ch : Fin 8) (q : Byte) (c p : Half) : (s.receiveMark a ch q c p).pending = s.pending := by
  unfold receiveMark
  repeat' split
  all_goals simp

@[simp] theorem localRoute_ltu (ch : Fin 8) (q : Byte) (c : Instant) (p : Word) : (s.localRoute ch q c p).ltu = s.ltu := by
  unfold localRoute
  simp
@[simp] theorem localRoute_mku (ch : Fin 8) (q : Byte) (c : Instant) (p : Word) : (s.localRoute ch q c p).mku = s.mku := by
  unfold localRoute
  simp
@[simp] theorem localRoute_tvu (ch : Fin 8) (q : Byte) (c : Instant) (p : Word) : (s.localRoute ch q c p).tvu = s.tvu := by
  unfold localRoute
  simp
@[simp] theorem localRoute_llu (ch : Fin 8) (q : Byte) (c : Instant) (p : Word) : (s.localRoute ch q c p).llu = s.llu := by
  unfold localRoute
  simp
@[simp] theorem localRoute_lpi (ch : Fin 8) (q : Byte) (c : Instant) (p : Word) : (s.localRoute ch q c p).lpi = s.lpi := by
  unfold localRoute
  simp
@[simp] theorem localRoute_srh (ch : Fin 8) (q : Byte) (c : Instant) (p : Word) : (s.localRoute ch q c p).srh = s.srh := by
  unfold localRoute
  simp
@[simp] theorem localRoute_cfl (ch : Fin 8) (q : Byte) (c : Instant) (p : Word) : (s.localRoute ch q c p).cfl = s.cfl := by
  unfold localRoute
  simp
@[simp] theorem localRoute_pending (ch : Fin 8) (q : Byte) (c : Instant) (p : Word) : (s.localRoute ch q c p).pending = s.pending := by
  unfold localRoute
  simp

@[simp] theorem publishRoute_ltu (ch : Fin 8) (q : Byte) (c : Instant) : (s.publishRoute ch q c).ltu = s.ltu := by
  unfold publishRoute
  repeat' split
  all_goals rfl
@[simp] theorem publishRoute_sbs (ch : Fin 8) (q : Byte) (c : Instant) : (s.publishRoute ch q c).sbs = s.sbs := by
  unfold publishRoute
  repeat' split
  all_goals rfl
@[simp] theorem publishRoute_asc (ch : Fin 8) (q : Byte) (c : Instant) : (s.publishRoute ch q c).asc = s.asc := by
  unfold publishRoute
  repeat' split
  all_goals rfl
@[simp] theorem publishRoute_dcu (ch : Fin 8) (q : Byte) (c : Instant) : (s.publishRoute ch q c).dcu = s.dcu := by
  unfold publishRoute
  repeat' split
  all_goals rfl
@[simp] theorem publishRoute_tvu (ch : Fin 8) (q : Byte) (c : Instant) : (s.publishRoute ch q c).tvu = s.tvu := by
  unfold publishRoute
  repeat' split
  all_goals rfl
@[simp] theorem publishRoute_llu (ch : Fin 8) (q : Byte) (c : Instant) : (s.publishRoute ch q c).llu = s.llu := by
  unfold publishRoute
  repeat' split
  all_goals rfl
@[simp] theorem publishRoute_lpi (ch : Fin 8) (q : Byte) (c : Instant) : (s.publishRoute ch q c).lpi = s.lpi := by
  unfold publishRoute
  repeat' split
  all_goals rfl
@[simp] theorem publishRoute_srh (ch : Fin 8) (q : Byte) (c : Instant) : (s.publishRoute ch q c).srh = s.srh := by
  unfold publishRoute
  repeat' split
  all_goals rfl
@[simp] theorem publishRoute_cfl (ch : Fin 8) (q : Byte) (c : Instant) : (s.publishRoute ch q c).cfl = s.cfl := by
  unfold publishRoute
  repeat' split
  all_goals rfl
@[simp] theorem publishRoute_pending (ch : Fin 8) (q : Byte) (c : Instant) : (s.publishRoute ch q c).pending = s.pending := by
  unfold publishRoute
  repeat' split
  all_goals rfl

@[simp] theorem takeCapture_ltu (l : LineSettings) (c : Instant) (p : Word) : (s.takeCapture l c p).ltu = s.ltu := by
  unfold takeCapture
  repeat' split
  all_goals simp
@[simp] theorem takeCapture_tvu (l : LineSettings) (c : Instant) (p : Word) : (s.takeCapture l c p).tvu = s.tvu := by
  unfold takeCapture
  repeat' split
  all_goals simp
@[simp] theorem takeCapture_llu (l : LineSettings) (c : Instant) (p : Word) : (s.takeCapture l c p).llu = s.llu := by
  unfold takeCapture
  repeat' split
  all_goals simp
@[simp] theorem takeCapture_lpi (l : LineSettings) (c : Instant) (p : Word) : (s.takeCapture l c p).lpi = s.lpi := by
  unfold takeCapture
  repeat' split
  all_goals simp
@[simp] theorem takeCapture_srh (l : LineSettings) (c : Instant) (p : Word) : (s.takeCapture l c p).srh = s.srh := by
  unfold takeCapture
  repeat' split
  all_goals simp
@[simp] theorem takeCapture_cfl (l : LineSettings) (c : Instant) (p : Word) : (s.takeCapture l c p).cfl = s.cfl := by
  unfold takeCapture
  repeat' split
  all_goals simp
@[simp] theorem takeCapture_pending (l : LineSettings) (c : Instant) (p : Word) : (s.takeCapture l c p).pending = s.pending := by
  unfold takeCapture
  repeat' split
  all_goals simp

@[simp] theorem senseEdge_ltu (n : LineId) (l : Level) (st : Option Stamp) : (s.senseEdge n l st).ltu = s.ltu := by
  simp only [senseEdge]
  repeat' split
  all_goals first | rfl | simp
@[simp] theorem senseEdge_tvu (n : LineId) (l : Level) (st : Option Stamp) : (s.senseEdge n l st).tvu = s.tvu := by
  simp only [senseEdge]
  repeat' split
  all_goals first | rfl | simp
@[simp] theorem senseEdge_lpi (n : LineId) (l : Level) (st : Option Stamp) : (s.senseEdge n l st).lpi = s.lpi := by
  simp only [senseEdge]
  repeat' split
  all_goals first | rfl | simp
@[simp] theorem senseEdge_srh (n : LineId) (l : Level) (st : Option Stamp) : (s.senseEdge n l st).srh = s.srh := by
  simp only [senseEdge]
  repeat' split
  all_goals first | rfl | simp
@[simp] theorem senseEdge_cfl (n : LineId) (l : Level) (st : Option Stamp) : (s.senseEdge n l st).cfl = s.cfl := by
  simp only [senseEdge]
  repeat' split
  all_goals first | rfl | simp
@[simp] theorem senseEdge_pending (n : LineId) (l : Level) (st : Option Stamp) : (s.senseEdge n l st).pending = s.pending := by
  simp only [senseEdge]
  repeat' split
  all_goals first | rfl | simp

@[simp] theorem encoderEdge_ltu (n : LineId) (l : Level) : (s.encoderEdge n l).ltu = s.ltu := by
  unfold encoderEdge
  repeat' split
  all_goals simp
@[simp] theorem encoderEdge_sbs (n : LineId) (l : Level) : (s.encoderEdge n l).sbs = s.sbs := by
  unfold encoderEdge
  repeat' split
  all_goals simp
@[simp] theorem encoderEdge_mku (n : LineId) (l : Level) : (s.encoderEdge n l).mku = s.mku := by
  unfold encoderEdge
  repeat' split
  all_goals simp
@[simp] theorem encoderEdge_llu (n : LineId) (l : Level) : (s.encoderEdge n l).llu = s.llu := by
  unfold encoderEdge
  repeat' split
  all_goals simp
@[simp] theorem encoderEdge_lpi (n : LineId) (l : Level) : (s.encoderEdge n l).lpi = s.lpi := by
  unfold encoderEdge
  repeat' split
  all_goals simp
@[simp] theorem encoderEdge_fru (n : LineId) (l : Level) : (s.encoderEdge n l).fru = s.fru := by
  unfold encoderEdge
  repeat' split
  all_goals simp
@[simp] theorem encoderEdge_srh (n : LineId) (l : Level) : (s.encoderEdge n l).srh = s.srh := by
  unfold encoderEdge
  repeat' split
  all_goals simp
@[simp] theorem encoderEdge_cfl (n : LineId) (l : Level) : (s.encoderEdge n l).cfl = s.cfl := by
  unfold encoderEdge
  repeat' split
  all_goals simp
@[simp] theorem encoderEdge_pending (n : LineId) (l : Level) : (s.encoderEdge n l).pending = s.pending := by
  unfold encoderEdge
  repeat' split
  all_goals simp

@[simp] theorem acceptEdge_ltu (n : LineId) (r : FilterRecord) : (s.acceptEdge n r).ltu = s.ltu := by
  unfold acceptEdge
  repeat' split
  all_goals simp
@[simp] theorem acceptEdge_lpi (n : LineId) (r : FilterRecord) : (s.acceptEdge n r).lpi = s.lpi := by
  unfold acceptEdge
  repeat' split
  all_goals simp
@[simp] theorem acceptEdge_srh (n : LineId) (r : FilterRecord) : (s.acceptEdge n r).srh = s.srh := by
  unfold acceptEdge
  repeat' split
  all_goals simp
@[simp] theorem acceptEdge_cfl (n : LineId) (r : FilterRecord) : (s.acceptEdge n r).cfl = s.cfl := by
  unfold acceptEdge
  repeat' split
  all_goals simp
@[simp] theorem acceptEdge_pending (n : LineId) (r : FilterRecord) : (s.acceptEdge n r).pending = s.pending := by
  unfold acceptEdge
  repeat' split
  all_goals simp

@[simp] theorem markSampled_ltu (n : LineId) : (s.markSampled n).ltu = s.ltu := rfl
@[simp] theorem markSampled_sbs (n : LineId) : (s.markSampled n).sbs = s.sbs := rfl
@[simp] theorem markSampled_mku (n : LineId) : (s.markSampled n).mku = s.mku := rfl
@[simp] theorem markSampled_asc (n : LineId) : (s.markSampled n).asc = s.asc := rfl
@[simp] theorem markSampled_dcu (n : LineId) : (s.markSampled n).dcu = s.dcu := rfl
@[simp] theorem markSampled_tvu (n : LineId) : (s.markSampled n).tvu = s.tvu := rfl
@[simp] theorem markSampled_lpi (n : LineId) : (s.markSampled n).lpi = s.lpi := rfl
@[simp] theorem markSampled_fru (n : LineId) : (s.markSampled n).fru = s.fru := rfl
@[simp] theorem markSampled_srh (n : LineId) : (s.markSampled n).srh = s.srh := rfl
@[simp] theorem markSampled_cfl (n : LineId) : (s.markSampled n).cfl = s.cfl := rfl
@[simp] theorem markSampled_pending (n : LineId) : (s.markSampled n).pending = s.pending := rfl

@[simp] theorem sightLine_ltu (n : LineId) : (s.sightLine n).ltu = s.ltu := by
  simp only [sightLine]
  repeat' split
  all_goals first | rfl | simp
@[simp] theorem sightLine_lpi (n : LineId) : (s.sightLine n).lpi = s.lpi := by
  simp only [sightLine]
  repeat' split
  all_goals first | rfl | simp
@[simp] theorem sightLine_srh (n : LineId) : (s.sightLine n).srh = s.srh := by
  simp only [sightLine]
  repeat' split
  all_goals first | rfl | simp
@[simp] theorem sightLine_cfl (n : LineId) : (s.sightLine n).cfl = s.cfl := by
  simp only [sightLine]
  repeat' split
  all_goals first | rfl | simp
@[simp] theorem sightLine_pending (n : LineId) : (s.sightLine n).pending = s.pending := by
  simp only [sightLine]
  repeat' split
  all_goals first | rfl | simp

@[simp] theorem sampleLine_ltu (n : LineId) : (s.sampleLine n).ltu = s.ltu := by
  unfold sampleLine
  repeat' split
  all_goals simp
@[simp] theorem sampleLine_lpi (n : LineId) : (s.sampleLine n).lpi = s.lpi := by
  unfold sampleLine
  repeat' split
  all_goals simp
@[simp] theorem sampleLine_srh (n : LineId) : (s.sampleLine n).srh = s.srh := by
  unfold sampleLine
  repeat' split
  all_goals simp
@[simp] theorem sampleLine_cfl (n : LineId) : (s.sampleLine n).cfl = s.cfl := by
  unfold sampleLine
  repeat' split
  all_goals simp
@[simp] theorem sampleLine_pending (n : LineId) : (s.sampleLine n).pending = s.pending := by
  unfold sampleLine
  repeat' split
  all_goals simp

@[simp] theorem startPulses_ltu : (s.startPulses).ltu = s.ltu := rfl
@[simp] theorem startPulses_sbs : (s.startPulses).sbs = s.sbs := rfl
@[simp] theorem startPulses_mku : (s.startPulses).mku = s.mku := rfl
@[simp] theorem startPulses_asc : (s.startPulses).asc = s.asc := rfl
@[simp] theorem startPulses_dcu : (s.startPulses).dcu = s.dcu := rfl
@[simp] theorem startPulses_tvu : (s.startPulses).tvu = s.tvu := rfl
@[simp] theorem startPulses_lpi : (s.startPulses).lpi = s.lpi := rfl
@[simp] theorem startPulses_fru : (s.startPulses).fru = s.fru := rfl
@[simp] theorem startPulses_srh : (s.startPulses).srh = s.srh := rfl
@[simp] theorem startPulses_cfl : (s.startPulses).cfl = s.cfl := rfl
@[simp] theorem startPulses_pending : (s.startPulses).pending = s.pending := rfl

@[simp] theorem shiftRecords_ltu (k : Nat) : (s.shiftRecords k).ltu = s.ltu := rfl
@[simp] theorem shiftRecords_sbs (k : Nat) : (s.shiftRecords k).sbs = s.sbs := rfl
@[simp] theorem shiftRecords_mku (k : Nat) : (s.shiftRecords k).mku = s.mku := rfl
@[simp] theorem shiftRecords_asc (k : Nat) : (s.shiftRecords k).asc = s.asc := rfl
@[simp] theorem shiftRecords_dcu (k : Nat) : (s.shiftRecords k).dcu = s.dcu := rfl
@[simp] theorem shiftRecords_tvu (k : Nat) : (s.shiftRecords k).tvu = s.tvu := rfl
@[simp] theorem shiftRecords_lpi (k : Nat) : (s.shiftRecords k).lpi = s.lpi := rfl
@[simp] theorem shiftRecords_fru (k : Nat) : (s.shiftRecords k).fru = s.fru := rfl
@[simp] theorem shiftRecords_srh (k : Nat) : (s.shiftRecords k).srh = s.srh := rfl
@[simp] theorem shiftRecords_cfl (k : Nat) : (s.shiftRecords k).cfl = s.cfl := rfl
@[simp] theorem shiftRecords_pending (k : Nat) : (s.shiftRecords k).pending = s.pending := rfl

@[simp] theorem readBackAgrees_ltu (n : LineId) : (s.readBackAgrees n).ltu = s.ltu := rfl
@[simp] theorem readBackAgrees_sbs (n : LineId) : (s.readBackAgrees n).sbs = s.sbs := rfl
@[simp] theorem readBackAgrees_mku (n : LineId) : (s.readBackAgrees n).mku = s.mku := rfl
@[simp] theorem readBackAgrees_asc (n : LineId) : (s.readBackAgrees n).asc = s.asc := rfl
@[simp] theorem readBackAgrees_dcu (n : LineId) : (s.readBackAgrees n).dcu = s.dcu := rfl
@[simp] theorem readBackAgrees_tvu (n : LineId) : (s.readBackAgrees n).tvu = s.tvu := rfl
@[simp] theorem readBackAgrees_lpi (n : LineId) : (s.readBackAgrees n).lpi = s.lpi := rfl
@[simp] theorem readBackAgrees_fru (n : LineId) : (s.readBackAgrees n).fru = s.fru := rfl
@[simp] theorem readBackAgrees_srh (n : LineId) : (s.readBackAgrees n).srh = s.srh := rfl
@[simp] theorem readBackAgrees_cfl (n : LineId) : (s.readBackAgrees n).cfl = s.cfl := rfl
@[simp] theorem readBackAgrees_pending (n : LineId) : (s.readBackAgrees n).pending = s.pending := rfl

@[simp] theorem readBackDiffers_ltu (n : LineId) : (s.readBackDiffers n).ltu = s.ltu := by
  unfold readBackDiffers
  repeat' split
  all_goals rfl
@[simp] theorem readBackDiffers_sbs (n : LineId) : (s.readBackDiffers n).sbs = s.sbs := by
  unfold readBackDiffers
  repeat' split
  all_goals rfl
@[simp] theorem readBackDiffers_mku (n : LineId) : (s.readBackDiffers n).mku = s.mku := by
  unfold readBackDiffers
  repeat' split
  all_goals rfl
@[simp] theorem readBackDiffers_asc (n : LineId) : (s.readBackDiffers n).asc = s.asc := by
  unfold readBackDiffers
  repeat' split
  all_goals rfl
@[simp] theorem readBackDiffers_dcu (n : LineId) : (s.readBackDiffers n).dcu = s.dcu := by
  unfold readBackDiffers
  repeat' split
  all_goals rfl
@[simp] theorem readBackDiffers_tvu (n : LineId) : (s.readBackDiffers n).tvu = s.tvu := by
  unfold readBackDiffers
  repeat' split
  all_goals rfl
@[simp] theorem readBackDiffers_lpi (n : LineId) : (s.readBackDiffers n).lpi = s.lpi := by
  unfold readBackDiffers
  repeat' split
  all_goals rfl
@[simp] theorem readBackDiffers_srh (n : LineId) : (s.readBackDiffers n).srh = s.srh := by
  unfold readBackDiffers
  repeat' split
  all_goals rfl
@[simp] theorem readBackDiffers_cfl (n : LineId) : (s.readBackDiffers n).cfl = s.cfl := by
  unfold readBackDiffers
  repeat' split
  all_goals rfl
@[simp] theorem readBackDiffers_pending (n : LineId) : (s.readBackDiffers n).pending = s.pending := by
  unfold readBackDiffers
  repeat' split
  all_goals rfl

@[simp] theorem compareLine_ltu (n : LineId) : (s.compareLine n).ltu = s.ltu := by
  unfold compareLine
  repeat' split
  all_goals simp
@[simp] theorem compareLine_sbs (n : LineId) : (s.compareLine n).sbs = s.sbs := by
  unfold compareLine
  repeat' split
  all_goals simp
@[simp] theorem compareLine_mku (n : LineId) : (s.compareLine n).mku = s.mku := by
  unfold compareLine
  repeat' split
  all_goals simp
@[simp] theorem compareLine_asc (n : LineId) : (s.compareLine n).asc = s.asc := by
  unfold compareLine
  repeat' split
  all_goals simp
@[simp] theorem compareLine_dcu (n : LineId) : (s.compareLine n).dcu = s.dcu := by
  unfold compareLine
  repeat' split
  all_goals simp
@[simp] theorem compareLine_tvu (n : LineId) : (s.compareLine n).tvu = s.tvu := by
  unfold compareLine
  repeat' split
  all_goals simp
@[simp] theorem compareLine_lpi (n : LineId) : (s.compareLine n).lpi = s.lpi := by
  unfold compareLine
  repeat' split
  all_goals simp
@[simp] theorem compareLine_srh (n : LineId) : (s.compareLine n).srh = s.srh := by
  unfold compareLine
  repeat' split
  all_goals simp
@[simp] theorem compareLine_cfl (n : LineId) : (s.compareLine n).cfl = s.cfl := by
  unfold compareLine
  repeat' split
  all_goals simp
@[simp] theorem compareLine_pending (n : LineId) : (s.compareLine n).pending = s.pending := by
  unfold compareLine
  repeat' split
  all_goals simp

@[simp] theorem quietStep_ltu : (s.quietStep).ltu = s.ltu := by
  unfold quietStep
  repeat' split
  all_goals rfl
@[simp] theorem quietStep_sbs : (s.quietStep).sbs = s.sbs := by
  unfold quietStep
  repeat' split
  all_goals rfl
@[simp] theorem quietStep_mku : (s.quietStep).mku = s.mku := by
  unfold quietStep
  repeat' split
  all_goals rfl
@[simp] theorem quietStep_asc : (s.quietStep).asc = s.asc := by
  unfold quietStep
  repeat' split
  all_goals rfl
@[simp] theorem quietStep_dcu : (s.quietStep).dcu = s.dcu := by
  unfold quietStep
  repeat' split
  all_goals rfl
@[simp] theorem quietStep_tvu : (s.quietStep).tvu = s.tvu := by
  unfold quietStep
  repeat' split
  all_goals rfl
@[simp] theorem quietStep_llu : (s.quietStep).llu = s.llu := by
  unfold quietStep
  repeat' split
  all_goals rfl
@[simp] theorem quietStep_fru : (s.quietStep).fru = s.fru := by
  unfold quietStep
  repeat' split
  all_goals rfl
@[simp] theorem quietStep_srh : (s.quietStep).srh = s.srh := by
  unfold quietStep
  repeat' split
  all_goals rfl
@[simp] theorem quietStep_cfl : (s.quietStep).cfl = s.cfl := by
  unfold quietStep
  repeat' split
  all_goals rfl
@[simp] theorem quietStep_pending : (s.quietStep).pending = s.pending := by
  unfold quietStep
  repeat' split
  all_goals rfl

@[simp] theorem noteAcceptance_ltu : (s.noteAcceptance).ltu = s.ltu := by
  unfold noteAcceptance
  repeat' split
  all_goals rfl
@[simp] theorem noteAcceptance_sbs : (s.noteAcceptance).sbs = s.sbs := by
  unfold noteAcceptance
  repeat' split
  all_goals rfl
@[simp] theorem noteAcceptance_mku : (s.noteAcceptance).mku = s.mku := by
  unfold noteAcceptance
  repeat' split
  all_goals rfl
@[simp] theorem noteAcceptance_asc : (s.noteAcceptance).asc = s.asc := by
  unfold noteAcceptance
  repeat' split
  all_goals rfl
@[simp] theorem noteAcceptance_dcu : (s.noteAcceptance).dcu = s.dcu := by
  unfold noteAcceptance
  repeat' split
  all_goals rfl
@[simp] theorem noteAcceptance_tvu : (s.noteAcceptance).tvu = s.tvu := by
  unfold noteAcceptance
  repeat' split
  all_goals rfl
@[simp] theorem noteAcceptance_llu : (s.noteAcceptance).llu = s.llu := by
  unfold noteAcceptance
  repeat' split
  all_goals rfl
@[simp] theorem noteAcceptance_fru : (s.noteAcceptance).fru = s.fru := by
  unfold noteAcceptance
  repeat' split
  all_goals rfl
@[simp] theorem noteAcceptance_srh : (s.noteAcceptance).srh = s.srh := by
  unfold noteAcceptance
  repeat' split
  all_goals rfl
@[simp] theorem noteAcceptance_cfl : (s.noteAcceptance).cfl = s.cfl := by
  unfold noteAcceptance
  repeat' split
  all_goals rfl
@[simp] theorem noteAcceptance_pending : (s.noteAcceptance).pending = s.pending := by
  unfold noteAcceptance
  repeat' split
  all_goals rfl

@[simp] theorem withdraw_sbs : (s.withdraw).sbs = s.sbs := rfl
@[simp] theorem withdraw_mku : (s.withdraw).mku = s.mku := rfl
@[simp] theorem withdraw_asc : (s.withdraw).asc = s.asc := rfl
@[simp] theorem withdraw_dcu : (s.withdraw).dcu = s.dcu := rfl
@[simp] theorem withdraw_tvu : (s.withdraw).tvu = s.tvu := rfl
@[simp] theorem withdraw_llu : (s.withdraw).llu = s.llu := rfl
@[simp] theorem withdraw_lpi : (s.withdraw).lpi = s.lpi := rfl
@[simp] theorem withdraw_fru : (s.withdraw).fru = s.fru := rfl
@[simp] theorem withdraw_srh : (s.withdraw).srh = s.srh := rfl
@[simp] theorem withdraw_cfl : (s.withdraw).cfl = s.cfl := rfl
@[simp] theorem withdraw_pending : (s.withdraw).pending = s.pending := rfl

@[simp] theorem streakStep_sbs (b : Bool) : (s.streakStep b).sbs = s.sbs := rfl
@[simp] theorem streakStep_mku (b : Bool) : (s.streakStep b).mku = s.mku := rfl
@[simp] theorem streakStep_asc (b : Bool) : (s.streakStep b).asc = s.asc := rfl
@[simp] theorem streakStep_dcu (b : Bool) : (s.streakStep b).dcu = s.dcu := rfl
@[simp] theorem streakStep_tvu (b : Bool) : (s.streakStep b).tvu = s.tvu := rfl
@[simp] theorem streakStep_llu (b : Bool) : (s.streakStep b).llu = s.llu := rfl
@[simp] theorem streakStep_lpi (b : Bool) : (s.streakStep b).lpi = s.lpi := rfl
@[simp] theorem streakStep_fru (b : Bool) : (s.streakStep b).fru = s.fru := rfl
@[simp] theorem streakStep_srh (b : Bool) : (s.streakStep b).srh = s.srh := rfl
@[simp] theorem streakStep_cfl (b : Bool) : (s.streakStep b).cfl = s.cfl := rfl
@[simp] theorem streakStep_pending (b : Bool) : (s.streakStep b).pending = s.pending := rfl

@[simp] theorem boundary_mku (b : Bool) (c : Word) : (s.boundary b c).mku = s.mku := by
  unfold boundary
  simp
@[simp] theorem boundary_asc (b : Bool) (c : Word) : (s.boundary b c).asc = s.asc := by
  unfold boundary
  simp
@[simp] theorem boundary_dcu (b : Bool) (c : Word) : (s.boundary b c).dcu = s.dcu := by
  unfold boundary
  simp
@[simp] theorem boundary_fru (b : Bool) (c : Word) : (s.boundary b c).fru = s.fru := by
  unfold boundary
  simp
@[simp] theorem boundary_srh (b : Bool) (c : Word) : (s.boundary b c).srh = s.srh := by
  unfold boundary
  simp
@[simp] theorem boundary_cfl (b : Bool) (c : Word) : (s.boundary b c).cfl = s.cfl := by
  unfold boundary
  simp
@[simp] theorem boundary_pending (b : Bool) (c : Word) : (s.boundary b c).pending = s.pending := by
  unfold boundary
  simp

@[simp] theorem expireCycle_mku : (s.expireCycle).mku = s.mku := by
  unfold expireCycle
  simp
@[simp] theorem expireCycle_fru : (s.expireCycle).fru = s.fru := by
  unfold expireCycle
  simp
@[simp] theorem expireCycle_srh : (s.expireCycle).srh = s.srh := by
  unfold expireCycle
  simp
@[simp] theorem expireCycle_cfl : (s.expireCycle).cfl = s.cfl := by
  unfold expireCycle
  simp
@[simp] theorem expireCycle_pending : (s.expireCycle).pending = s.pending := by
  unfold expireCycle
  simp

@[simp] theorem advancePhase_sbs : (s.advancePhase).sbs = s.sbs := rfl
@[simp] theorem advancePhase_mku : (s.advancePhase).mku = s.mku := rfl
@[simp] theorem advancePhase_tvu : (s.advancePhase).tvu = s.tvu := rfl
@[simp] theorem advancePhase_llu : (s.advancePhase).llu = s.llu := rfl
@[simp] theorem advancePhase_lpi : (s.advancePhase).lpi = s.lpi := rfl
@[simp] theorem advancePhase_fru : (s.advancePhase).fru = s.fru := rfl
@[simp] theorem advancePhase_srh : (s.advancePhase).srh = s.srh := rfl
@[simp] theorem advancePhase_cfl : (s.advancePhase).cfl = s.cfl := rfl
@[simp] theorem advancePhase_pending : (s.advancePhase).pending = s.pending := rfl

@[simp] theorem advance_mku : (s.advance).mku = s.mku := by
  unfold advance
  repeat' split
  all_goals simp
@[simp] theorem advance_fru : (s.advance).fru = s.fru := by
  unfold advance
  repeat' split
  all_goals simp
@[simp] theorem advance_srh : (s.advance).srh = s.srh := by
  unfold advance
  repeat' split
  all_goals simp
@[simp] theorem advance_cfl : (s.advance).cfl = s.cfl := by
  unfold advance
  repeat' split
  all_goals simp
@[simp] theorem advance_pending : (s.advance).pending = s.pending := by
  unfold advance
  repeat' split
  all_goals simp

@[simp] theorem holdTick_sbs : (s.holdTick).sbs = s.sbs := rfl
@[simp] theorem holdTick_mku : (s.holdTick).mku = s.mku := rfl
@[simp] theorem holdTick_asc : (s.holdTick).asc = s.asc := rfl
@[simp] theorem holdTick_dcu : (s.holdTick).dcu = s.dcu := rfl
@[simp] theorem holdTick_tvu : (s.holdTick).tvu = s.tvu := rfl
@[simp] theorem holdTick_llu : (s.holdTick).llu = s.llu := rfl
@[simp] theorem holdTick_lpi : (s.holdTick).lpi = s.lpi := rfl
@[simp] theorem holdTick_fru : (s.holdTick).fru = s.fru := rfl
@[simp] theorem holdTick_srh : (s.holdTick).srh = s.srh := rfl
@[simp] theorem holdTick_cfl : (s.holdTick).cfl = s.cfl := rfl
@[simp] theorem holdTick_pending : (s.holdTick).pending = s.pending := rfl

@[simp] theorem wrapInListen_sbs : (s.wrapInListen).sbs = s.sbs := rfl
@[simp] theorem wrapInListen_mku : (s.wrapInListen).mku = s.mku := rfl
@[simp] theorem wrapInListen_asc : (s.wrapInListen).asc = s.asc := rfl
@[simp] theorem wrapInListen_dcu : (s.wrapInListen).dcu = s.dcu := rfl
@[simp] theorem wrapInListen_tvu : (s.wrapInListen).tvu = s.tvu := rfl
@[simp] theorem wrapInListen_llu : (s.wrapInListen).llu = s.llu := rfl
@[simp] theorem wrapInListen_lpi : (s.wrapInListen).lpi = s.lpi := rfl
@[simp] theorem wrapInListen_fru : (s.wrapInListen).fru = s.fru := rfl
@[simp] theorem wrapInListen_srh : (s.wrapInListen).srh = s.srh := rfl
@[simp] theorem wrapInListen_cfl : (s.wrapInListen).cfl = s.cfl := rfl
@[simp] theorem wrapInListen_pending : (s.wrapInListen).pending = s.pending := rfl

@[simp] theorem startSelf_mku : (s.startSelf).mku = s.mku := by
  unfold startSelf
  repeat' split
  all_goals simp
@[simp] theorem startSelf_asc : (s.startSelf).asc = s.asc := by
  unfold startSelf
  repeat' split
  all_goals simp
@[simp] theorem startSelf_dcu : (s.startSelf).dcu = s.dcu := by
  unfold startSelf
  repeat' split
  all_goals simp
@[simp] theorem startSelf_fru : (s.startSelf).fru = s.fru := by
  unfold startSelf
  repeat' split
  all_goals simp
@[simp] theorem startSelf_srh : (s.startSelf).srh = s.srh := by
  unfold startSelf
  repeat' split
  all_goals simp
@[simp] theorem startSelf_cfl : (s.startSelf).cfl = s.cfl := by
  unfold startSelf
  repeat' split
  all_goals simp
@[simp] theorem startSelf_pending : (s.startSelf).pending = s.pending := by
  unfold startSelf
  repeat' split
  all_goals simp

@[simp] theorem listenAdvance_sbs : (s.listenAdvance).sbs = s.sbs := rfl
@[simp] theorem listenAdvance_mku : (s.listenAdvance).mku = s.mku := rfl
@[simp] theorem listenAdvance_asc : (s.listenAdvance).asc = s.asc := rfl
@[simp] theorem listenAdvance_dcu : (s.listenAdvance).dcu = s.dcu := rfl
@[simp] theorem listenAdvance_tvu : (s.listenAdvance).tvu = s.tvu := rfl
@[simp] theorem listenAdvance_llu : (s.listenAdvance).llu = s.llu := rfl
@[simp] theorem listenAdvance_lpi : (s.listenAdvance).lpi = s.lpi := rfl
@[simp] theorem listenAdvance_fru : (s.listenAdvance).fru = s.fru := rfl
@[simp] theorem listenAdvance_srh : (s.listenAdvance).srh = s.srh := rfl
@[simp] theorem listenAdvance_cfl : (s.listenAdvance).cfl = s.cfl := rfl
@[simp] theorem listenAdvance_pending : (s.listenAdvance).pending = s.pending := rfl

@[simp] theorem ltuTick_mku : (s.ltuTick).mku = s.mku := by
  unfold ltuTick
  repeat' split
  all_goals simp
@[simp] theorem ltuTick_fru : (s.ltuTick).fru = s.fru := by
  unfold ltuTick
  repeat' split
  all_goals simp
@[simp] theorem ltuTick_srh : (s.ltuTick).srh = s.srh := by
  unfold ltuTick
  repeat' split
  all_goals simp
@[simp] theorem ltuTick_cfl : (s.ltuTick).cfl = s.cfl := by
  unfold ltuTick
  repeat' split
  all_goals simp
@[simp] theorem ltuTick_pending : (s.ltuTick).pending = s.pending := by
  unfold ltuTick
  repeat' split
  all_goals simp

@[simp] theorem markTicked_sbs : (s.markTicked).sbs = s.sbs := rfl
@[simp] theorem markTicked_mku : (s.markTicked).mku = s.mku := rfl
@[simp] theorem markTicked_asc : (s.markTicked).asc = s.asc := rfl
@[simp] theorem markTicked_dcu : (s.markTicked).dcu = s.dcu := rfl
@[simp] theorem markTicked_tvu : (s.markTicked).tvu = s.tvu := rfl
@[simp] theorem markTicked_llu : (s.markTicked).llu = s.llu := rfl
@[simp] theorem markTicked_lpi : (s.markTicked).lpi = s.lpi := rfl
@[simp] theorem markTicked_fru : (s.markTicked).fru = s.fru := rfl
@[simp] theorem markTicked_srh : (s.markTicked).srh = s.srh := rfl
@[simp] theorem markTicked_cfl : (s.markTicked).cfl = s.cfl := rfl
@[simp] theorem markTicked_pending : (s.markTicked).pending = s.pending := rfl

@[simp] theorem adoptInListen_mku (a : Address) (i : Instant) : (s.adoptInListen a i).mku = s.mku := by
  unfold adoptInListen
  simp
@[simp] theorem adoptInListen_asc (a : Address) (i : Instant) : (s.adoptInListen a i).asc = s.asc := by
  unfold adoptInListen
  simp
@[simp] theorem adoptInListen_dcu (a : Address) (i : Instant) : (s.adoptInListen a i).dcu = s.dcu := by
  unfold adoptInListen
  simp
@[simp] theorem adoptInListen_fru (a : Address) (i : Instant) : (s.adoptInListen a i).fru = s.fru := by
  unfold adoptInListen
  simp
@[simp] theorem adoptInListen_srh (a : Address) (i : Instant) : (s.adoptInListen a i).srh = s.srh := by
  unfold adoptInListen
  simp
@[simp] theorem adoptInListen_cfl (a : Address) (i : Instant) : (s.adoptInListen a i).cfl = s.cfl := by
  unfold adoptInListen
  simp
@[simp] theorem adoptInListen_pending (a : Address) (i : Instant) : (s.adoptInListen a i).pending = s.pending := by
  unfold adoptInListen
  simp

@[simp] theorem adoptionEffects_sbs (a : Address) : (s.adoptionEffects a).sbs = s.sbs := rfl
@[simp] theorem adoptionEffects_mku (a : Address) : (s.adoptionEffects a).mku = s.mku := rfl
@[simp] theorem adoptionEffects_asc (a : Address) : (s.adoptionEffects a).asc = s.asc := rfl
@[simp] theorem adoptionEffects_dcu (a : Address) : (s.adoptionEffects a).dcu = s.dcu := rfl
@[simp] theorem adoptionEffects_tvu (a : Address) : (s.adoptionEffects a).tvu = s.tvu := rfl
@[simp] theorem adoptionEffects_llu (a : Address) : (s.adoptionEffects a).llu = s.llu := rfl
@[simp] theorem adoptionEffects_lpi (a : Address) : (s.adoptionEffects a).lpi = s.lpi := rfl
@[simp] theorem adoptionEffects_fru (a : Address) : (s.adoptionEffects a).fru = s.fru := rfl
@[simp] theorem adoptionEffects_srh (a : Address) : (s.adoptionEffects a).srh = s.srh := rfl
@[simp] theorem adoptionEffects_cfl (a : Address) : (s.adoptionEffects a).cfl = s.cfl := rfl
@[simp] theorem adoptionEffects_pending (a : Address) : (s.adoptionEffects a).pending = s.pending := rfl

@[simp] theorem adoptForward_mku (a : Address) (i : Instant) : (s.adoptForward a i).mku = s.mku := by
  unfold adoptForward
  repeat' split
  all_goals simp
@[simp] theorem adoptForward_fru (a : Address) (i : Instant) : (s.adoptForward a i).fru = s.fru := by
  unfold adoptForward
  repeat' split
  all_goals simp
@[simp] theorem adoptForward_srh (a : Address) (i : Instant) : (s.adoptForward a i).srh = s.srh := by
  unfold adoptForward
  repeat' split
  all_goals simp
@[simp] theorem adoptForward_cfl (a : Address) (i : Instant) : (s.adoptForward a i).cfl = s.cfl := by
  unfold adoptForward
  repeat' split
  all_goals simp
@[simp] theorem adoptForward_pending (a : Address) (i : Instant) : (s.adoptForward a i).pending = s.pending := by
  unfold adoptForward
  repeat' split
  all_goals simp

@[simp] theorem adoptBackward_sbs (a : Address) (k : Nat) : (s.adoptBackward a k).sbs = s.sbs := rfl
@[simp] theorem adoptBackward_mku (a : Address) (k : Nat) : (s.adoptBackward a k).mku = s.mku := rfl
@[simp] theorem adoptBackward_asc (a : Address) (k : Nat) : (s.adoptBackward a k).asc = s.asc := rfl
@[simp] theorem adoptBackward_dcu (a : Address) (k : Nat) : (s.adoptBackward a k).dcu = s.dcu := rfl
@[simp] theorem adoptBackward_tvu (a : Address) (k : Nat) : (s.adoptBackward a k).tvu = s.tvu := rfl
@[simp] theorem adoptBackward_llu (a : Address) (k : Nat) : (s.adoptBackward a k).llu = s.llu := rfl
@[simp] theorem adoptBackward_lpi (a : Address) (k : Nat) : (s.adoptBackward a k).lpi = s.lpi := rfl
@[simp] theorem adoptBackward_fru (a : Address) (k : Nat) : (s.adoptBackward a k).fru = s.fru := rfl
@[simp] theorem adoptBackward_srh (a : Address) (k : Nat) : (s.adoptBackward a k).srh = s.srh := rfl
@[simp] theorem adoptBackward_cfl (a : Address) (k : Nat) : (s.adoptBackward a k).cfl = s.cfl := rfl
@[simp] theorem adoptBackward_pending (a : Address) (k : Nat) : (s.adoptBackward a k).pending = s.pending := rfl

@[simp] theorem strayBeacon_ltu : (s.strayBeacon).ltu = s.ltu := rfl
@[simp] theorem strayBeacon_sbs : (s.strayBeacon).sbs = s.sbs := rfl
@[simp] theorem strayBeacon_mku : (s.strayBeacon).mku = s.mku := rfl
@[simp] theorem strayBeacon_asc : (s.strayBeacon).asc = s.asc := rfl
@[simp] theorem strayBeacon_dcu : (s.strayBeacon).dcu = s.dcu := rfl
@[simp] theorem strayBeacon_tvu : (s.strayBeacon).tvu = s.tvu := rfl
@[simp] theorem strayBeacon_llu : (s.strayBeacon).llu = s.llu := rfl
@[simp] theorem strayBeacon_lpi : (s.strayBeacon).lpi = s.lpi := rfl
@[simp] theorem strayBeacon_srh : (s.strayBeacon).srh = s.srh := rfl
@[simp] theorem strayBeacon_cfl : (s.strayBeacon).cfl = s.cfl := rfl
@[simp] theorem strayBeacon_pending : (s.strayBeacon).pending = s.pending := rfl

@[simp] theorem leadStray_sbs : (s.leadStray).sbs = s.sbs := rfl
@[simp] theorem leadStray_mku : (s.leadStray).mku = s.mku := rfl
@[simp] theorem leadStray_asc : (s.leadStray).asc = s.asc := rfl
@[simp] theorem leadStray_dcu : (s.leadStray).dcu = s.dcu := rfl
@[simp] theorem leadStray_tvu : (s.leadStray).tvu = s.tvu := rfl
@[simp] theorem leadStray_llu : (s.leadStray).llu = s.llu := rfl
@[simp] theorem leadStray_lpi : (s.leadStray).lpi = s.lpi := rfl
@[simp] theorem leadStray_srh : (s.leadStray).srh = s.srh := rfl
@[simp] theorem leadStray_cfl : (s.leadStray).cfl = s.cfl := rfl
@[simp] theorem leadStray_pending : (s.leadStray).pending = s.pending := rfl

@[simp] theorem shiftTimeline_ltu (k : Nat) (i : Instant) : (s.shiftTimeline k i).ltu = s.ltu := rfl
@[simp] theorem shiftTimeline_sbs (k : Nat) (i : Instant) : (s.shiftTimeline k i).sbs = s.sbs := rfl
@[simp] theorem shiftTimeline_dcu (k : Nat) (i : Instant) : (s.shiftTimeline k i).dcu = s.dcu := rfl
@[simp] theorem shiftTimeline_lpi (k : Nat) (i : Instant) : (s.shiftTimeline k i).lpi = s.lpi := rfl
@[simp] theorem shiftTimeline_fru (k : Nat) (i : Instant) : (s.shiftTimeline k i).fru = s.fru := rfl
@[simp] theorem shiftTimeline_srh (k : Nat) (i : Instant) : (s.shiftTimeline k i).srh = s.srh := rfl
@[simp] theorem shiftTimeline_cfl (k : Nat) (i : Instant) : (s.shiftTimeline k i).cfl = s.cfl := rfl
@[simp] theorem shiftTimeline_pending (k : Nat) (i : Instant) : (s.shiftTimeline k i).pending = s.pending := rfl

@[simp] theorem mergeTo_dcu (a : Address) (i : Instant) (k : Nat) : (s.mergeTo a i k).dcu = s.dcu := by
  unfold mergeTo
  repeat' split
  all_goals simp
@[simp] theorem mergeTo_srh (a : Address) (i : Instant) (k : Nat) : (s.mergeTo a i k).srh = s.srh := by
  unfold mergeTo
  repeat' split
  all_goals simp
@[simp] theorem mergeTo_cfl (a : Address) (i : Instant) (k : Nat) : (s.mergeTo a i k).cfl = s.cfl := by
  unfold mergeTo
  repeat' split
  all_goals simp
@[simp] theorem mergeTo_pending (a : Address) (i : Instant) (k : Nat) : (s.mergeTo a i k).pending = s.pending := by
  unfold mergeTo
  repeat' split
  all_goals simp

@[simp] theorem testBeacon_srh (a : Address) (i : Instant) : (s.testBeacon a i).srh = s.srh := by
  simp only [testBeacon]
  repeat' split
  all_goals first | rfl | simp
@[simp] theorem testBeacon_cfl (a : Address) (i : Instant) : (s.testBeacon a i).cfl = s.cfl := by
  simp only [testBeacon]
  repeat' split
  all_goals first | rfl | simp
@[simp] theorem testBeacon_pending (a : Address) (i : Instant) : (s.testBeacon a i).pending = s.pending := by
  simp only [testBeacon]
  repeat' split
  all_goals first | rfl | simp

@[simp] theorem takeBeacon_srh (a : Address) (c : Word) (p q : Half) : (s.takeBeacon a c p q).srh = s.srh := by
  unfold takeBeacon
  repeat' split
  all_goals simp
@[simp] theorem takeBeacon_cfl (a : Address) (c : Word) (p q : Half) : (s.takeBeacon a c p q).cfl = s.cfl := by
  unfold takeBeacon
  repeat' split
  all_goals simp
@[simp] theorem takeBeacon_pending (a : Address) (c : Word) (p q : Half) : (s.takeBeacon a c p q).pending = s.pending := by
  unfold takeBeacon
  repeat' split
  all_goals simp

@[simp] theorem refuseRequest_ltu : (s.refuseRequest).ltu = s.ltu := rfl
@[simp] theorem refuseRequest_sbs : (s.refuseRequest).sbs = s.sbs := rfl
@[simp] theorem refuseRequest_mku : (s.refuseRequest).mku = s.mku := rfl
@[simp] theorem refuseRequest_asc : (s.refuseRequest).asc = s.asc := rfl
@[simp] theorem refuseRequest_dcu : (s.refuseRequest).dcu = s.dcu := rfl
@[simp] theorem refuseRequest_tvu : (s.refuseRequest).tvu = s.tvu := rfl
@[simp] theorem refuseRequest_llu : (s.refuseRequest).llu = s.llu := rfl
@[simp] theorem refuseRequest_lpi : (s.refuseRequest).lpi = s.lpi := rfl
@[simp] theorem refuseRequest_srh : (s.refuseRequest).srh = s.srh := rfl
@[simp] theorem refuseRequest_cfl : (s.refuseRequest).cfl = s.cfl := rfl
@[simp] theorem refuseRequest_pending : (s.refuseRequest).pending = s.pending := rfl

@[simp] theorem takePage_ltu (p : Fin 8) : (s.takePage p).ltu = s.ltu := by
  unfold takePage
  repeat' split
  all_goals rfl
@[simp] theorem takePage_sbs (p : Fin 8) : (s.takePage p).sbs = s.sbs := by
  unfold takePage
  repeat' split
  all_goals rfl
@[simp] theorem takePage_mku (p : Fin 8) : (s.takePage p).mku = s.mku := by
  unfold takePage
  repeat' split
  all_goals rfl
@[simp] theorem takePage_asc (p : Fin 8) : (s.takePage p).asc = s.asc := by
  unfold takePage
  repeat' split
  all_goals rfl
@[simp] theorem takePage_dcu (p : Fin 8) : (s.takePage p).dcu = s.dcu := by
  unfold takePage
  repeat' split
  all_goals rfl
@[simp] theorem takePage_tvu (p : Fin 8) : (s.takePage p).tvu = s.tvu := by
  unfold takePage
  repeat' split
  all_goals rfl
@[simp] theorem takePage_llu (p : Fin 8) : (s.takePage p).llu = s.llu := by
  unfold takePage
  repeat' split
  all_goals rfl
@[simp] theorem takePage_lpi (p : Fin 8) : (s.takePage p).lpi = s.lpi := by
  unfold takePage
  repeat' split
  all_goals rfl
@[simp] theorem takePage_srh (p : Fin 8) : (s.takePage p).srh = s.srh := by
  unfold takePage
  repeat' split
  all_goals rfl
@[simp] theorem takePage_cfl (p : Fin 8) : (s.takePage p).cfl = s.cfl := by
  unfold takePage
  repeat' split
  all_goals rfl
@[simp] theorem takePage_pending (p : Fin 8) : (s.takePage p).pending = s.pending := by
  unfold takePage
  repeat' split
  all_goals rfl

@[simp] theorem takeQuery_ltu (a p : Byte) : (s.takeQuery a p).ltu = s.ltu := by
  unfold takeQuery
  repeat' split
  all_goals simp
@[simp] theorem takeQuery_sbs (a p : Byte) : (s.takeQuery a p).sbs = s.sbs := by
  unfold takeQuery
  repeat' split
  all_goals simp
@[simp] theorem takeQuery_mku (a p : Byte) : (s.takeQuery a p).mku = s.mku := by
  unfold takeQuery
  repeat' split
  all_goals simp
@[simp] theorem takeQuery_asc (a p : Byte) : (s.takeQuery a p).asc = s.asc := by
  unfold takeQuery
  repeat' split
  all_goals simp
@[simp] theorem takeQuery_dcu (a p : Byte) : (s.takeQuery a p).dcu = s.dcu := by
  unfold takeQuery
  repeat' split
  all_goals simp
@[simp] theorem takeQuery_tvu (a p : Byte) : (s.takeQuery a p).tvu = s.tvu := by
  unfold takeQuery
  repeat' split
  all_goals simp
@[simp] theorem takeQuery_llu (a p : Byte) : (s.takeQuery a p).llu = s.llu := by
  unfold takeQuery
  repeat' split
  all_goals simp
@[simp] theorem takeQuery_lpi (a p : Byte) : (s.takeQuery a p).lpi = s.lpi := by
  unfold takeQuery
  repeat' split
  all_goals simp
@[simp] theorem takeQuery_srh (a p : Byte) : (s.takeQuery a p).srh = s.srh := by
  unfold takeQuery
  repeat' split
  all_goals simp
@[simp] theorem takeQuery_cfl (a p : Byte) : (s.takeQuery a p).cfl = s.cfl := by
  unfold takeQuery
  repeat' split
  all_goals simp
@[simp] theorem takeQuery_pending (a p : Byte) : (s.takeQuery a p).pending = s.pending := by
  unfold takeQuery
  repeat' split
  all_goals simp

@[simp] theorem beginAttempt_sbs : (s.beginAttempt).sbs = s.sbs := by
  unfold beginAttempt
  repeat' split
  all_goals rfl
@[simp] theorem beginAttempt_mku : (s.beginAttempt).mku = s.mku := by
  unfold beginAttempt
  repeat' split
  all_goals rfl
@[simp] theorem beginAttempt_asc : (s.beginAttempt).asc = s.asc := by
  unfold beginAttempt
  repeat' split
  all_goals rfl
@[simp] theorem beginAttempt_dcu : (s.beginAttempt).dcu = s.dcu := by
  unfold beginAttempt
  repeat' split
  all_goals rfl
@[simp] theorem beginAttempt_tvu : (s.beginAttempt).tvu = s.tvu := by
  unfold beginAttempt
  repeat' split
  all_goals rfl
@[simp] theorem beginAttempt_llu : (s.beginAttempt).llu = s.llu := by
  unfold beginAttempt
  repeat' split
  all_goals rfl
@[simp] theorem beginAttempt_srh : (s.beginAttempt).srh = s.srh := by
  unfold beginAttempt
  repeat' split
  all_goals rfl
@[simp] theorem beginAttempt_cfl : (s.beginAttempt).cfl = s.cfl := by
  unfold beginAttempt
  repeat' split
  all_goals rfl
@[simp] theorem beginAttempt_pending : (s.beginAttempt).pending = s.pending := by
  unfold beginAttempt
  repeat' split
  all_goals rfl

@[simp] theorem chooseCandidate_sbs : (s.chooseCandidate).sbs = s.sbs := by unfold chooseCandidate; simp
@[simp] theorem chooseCandidate_mku : (s.chooseCandidate).mku = s.mku := by unfold chooseCandidate; simp
@[simp] theorem chooseCandidate_asc : (s.chooseCandidate).asc = s.asc := by unfold chooseCandidate; simp
@[simp] theorem chooseCandidate_dcu : (s.chooseCandidate).dcu = s.dcu := by unfold chooseCandidate; simp
@[simp] theorem chooseCandidate_tvu : (s.chooseCandidate).tvu = s.tvu := by unfold chooseCandidate; simp
@[simp] theorem chooseCandidate_llu : (s.chooseCandidate).llu = s.llu := by unfold chooseCandidate; simp
@[simp] theorem chooseCandidate_srh : (s.chooseCandidate).srh = s.srh := by unfold chooseCandidate; simp
@[simp] theorem chooseCandidate_cfl : (s.chooseCandidate).cfl = s.cfl := by unfold chooseCandidate; simp
@[simp] theorem chooseCandidate_pending : (s.chooseCandidate).pending = s.pending := by unfold chooseCandidate; simp

@[simp] theorem returnReport_ltu : (s.returnReport).ltu = s.ltu := by
  unfold returnReport
  repeat' split
  all_goals rfl
@[simp] theorem returnReport_sbs : (s.returnReport).sbs = s.sbs := by
  unfold returnReport
  repeat' split
  all_goals rfl
@[simp] theorem returnReport_mku : (s.returnReport).mku = s.mku := by
  unfold returnReport
  repeat' split
  all_goals rfl
@[simp] theorem returnReport_asc : (s.returnReport).asc = s.asc := by
  unfold returnReport
  repeat' split
  all_goals rfl
@[simp] theorem returnReport_dcu : (s.returnReport).dcu = s.dcu := by
  unfold returnReport
  repeat' split
  all_goals rfl
@[simp] theorem returnReport_tvu : (s.returnReport).tvu = s.tvu := by
  unfold returnReport
  repeat' split
  all_goals rfl
@[simp] theorem returnReport_llu : (s.returnReport).llu = s.llu := by
  unfold returnReport
  repeat' split
  all_goals rfl
@[simp] theorem returnReport_lpi : (s.returnReport).lpi = s.lpi := by
  unfold returnReport
  repeat' split
  all_goals rfl
@[simp] theorem returnReport_srh : (s.returnReport).srh = s.srh := by
  unfold returnReport
  repeat' split
  all_goals rfl
@[simp] theorem returnReport_cfl : (s.returnReport).cfl = s.cfl := by
  unfold returnReport
  repeat' split
  all_goals rfl
@[simp] theorem returnReport_pending : (s.returnReport).pending = s.pending := by
  unfold returnReport
  repeat' split
  all_goals rfl

@[simp] theorem reportAccepted_ltu : (s.reportAccepted).ltu = s.ltu := by
  unfold reportAccepted
  repeat' split
  all_goals rfl
@[simp] theorem reportAccepted_sbs : (s.reportAccepted).sbs = s.sbs := by
  unfold reportAccepted
  repeat' split
  all_goals rfl
@[simp] theorem reportAccepted_mku : (s.reportAccepted).mku = s.mku := by
  unfold reportAccepted
  repeat' split
  all_goals rfl
@[simp] theorem reportAccepted_asc : (s.reportAccepted).asc = s.asc := by
  unfold reportAccepted
  repeat' split
  all_goals rfl
@[simp] theorem reportAccepted_dcu : (s.reportAccepted).dcu = s.dcu := by
  unfold reportAccepted
  repeat' split
  all_goals rfl
@[simp] theorem reportAccepted_tvu : (s.reportAccepted).tvu = s.tvu := by
  unfold reportAccepted
  repeat' split
  all_goals rfl
@[simp] theorem reportAccepted_llu : (s.reportAccepted).llu = s.llu := by
  unfold reportAccepted
  repeat' split
  all_goals rfl
@[simp] theorem reportAccepted_lpi : (s.reportAccepted).lpi = s.lpi := by
  unfold reportAccepted
  repeat' split
  all_goals rfl
@[simp] theorem reportAccepted_srh : (s.reportAccepted).srh = s.srh := by
  unfold reportAccepted
  repeat' split
  all_goals rfl
@[simp] theorem reportAccepted_cfl : (s.reportAccepted).cfl = s.cfl := by
  unfold reportAccepted
  repeat' split
  all_goals rfl
@[simp] theorem reportAccepted_pending : (s.reportAccepted).pending = s.pending := by
  unfold reportAccepted
  repeat' split
  all_goals rfl

@[simp] theorem returnCandidate_sbs (c : Candidate) : (s.returnCandidate c).sbs = s.sbs := by
  unfold returnCandidate
  repeat' split
  all_goals simp
@[simp] theorem returnCandidate_mku (c : Candidate) : (s.returnCandidate c).mku = s.mku := by
  unfold returnCandidate
  repeat' split
  all_goals simp
@[simp] theorem returnCandidate_asc (c : Candidate) : (s.returnCandidate c).asc = s.asc := by
  unfold returnCandidate
  repeat' split
  all_goals simp
@[simp] theorem returnCandidate_dcu (c : Candidate) : (s.returnCandidate c).dcu = s.dcu := by
  unfold returnCandidate
  repeat' split
  all_goals simp
@[simp] theorem returnCandidate_tvu (c : Candidate) : (s.returnCandidate c).tvu = s.tvu := by
  unfold returnCandidate
  repeat' split
  all_goals simp
@[simp] theorem returnCandidate_llu (c : Candidate) : (s.returnCandidate c).llu = s.llu := by
  unfold returnCandidate
  repeat' split
  all_goals simp
@[simp] theorem returnCandidate_lpi (c : Candidate) : (s.returnCandidate c).lpi = s.lpi := by
  unfold returnCandidate
  repeat' split
  all_goals simp
@[simp] theorem returnCandidate_srh (c : Candidate) : (s.returnCandidate c).srh = s.srh := by
  unfold returnCandidate
  repeat' split
  all_goals simp
@[simp] theorem returnCandidate_cfl (c : Candidate) : (s.returnCandidate c).cfl = s.cfl := by
  unfold returnCandidate
  repeat' split
  all_goals simp
@[simp] theorem returnCandidate_pending (c : Candidate) : (s.returnCandidate c).pending = s.pending := by
  unfold returnCandidate
  repeat' split
  all_goals simp

@[simp] theorem clearCandidate_sbs (c : Candidate) : (s.clearCandidate c).sbs = s.sbs := by
  unfold clearCandidate
  repeat' split
  all_goals simp
@[simp] theorem clearCandidate_asc (c : Candidate) : (s.clearCandidate c).asc = s.asc := by
  unfold clearCandidate
  repeat' split
  all_goals simp
@[simp] theorem clearCandidate_dcu (c : Candidate) : (s.clearCandidate c).dcu = s.dcu := by
  unfold clearCandidate
  repeat' split
  all_goals simp
@[simp] theorem clearCandidate_tvu (c : Candidate) : (s.clearCandidate c).tvu = s.tvu := by
  unfold clearCandidate
  repeat' split
  all_goals simp
@[simp] theorem clearCandidate_llu (c : Candidate) : (s.clearCandidate c).llu = s.llu := by
  unfold clearCandidate
  repeat' split
  all_goals simp
@[simp] theorem clearCandidate_lpi (c : Candidate) : (s.clearCandidate c).lpi = s.lpi := by
  unfold clearCandidate
  repeat' split
  all_goals simp
@[simp] theorem clearCandidate_srh (c : Candidate) : (s.clearCandidate c).srh = s.srh := by
  unfold clearCandidate
  repeat' split
  all_goals simp
@[simp] theorem clearCandidate_cfl (c : Candidate) : (s.clearCandidate c).cfl = s.cfl := by
  unfold clearCandidate
  repeat' split
  all_goals simp
@[simp] theorem clearCandidate_pending (c : Candidate) : (s.clearCandidate c).pending = s.pending := by
  unfold clearCandidate
  repeat' split
  all_goals simp

@[simp] theorem countTransmitFault_ltu : (s.countTransmitFault).ltu = s.ltu := by
  unfold countTransmitFault
  dsimp only
  split <;> rfl
@[simp] theorem countTransmitFault_sbs : (s.countTransmitFault).sbs = s.sbs := by
  unfold countTransmitFault
  dsimp only
  split <;> rfl
@[simp] theorem countTransmitFault_mku : (s.countTransmitFault).mku = s.mku := by
  unfold countTransmitFault
  dsimp only
  split <;> rfl
@[simp] theorem countTransmitFault_asc : (s.countTransmitFault).asc = s.asc := by
  unfold countTransmitFault
  dsimp only
  split <;> rfl
@[simp] theorem countTransmitFault_dcu : (s.countTransmitFault).dcu = s.dcu := by
  unfold countTransmitFault
  dsimp only
  split <;> rfl
@[simp] theorem countTransmitFault_tvu : (s.countTransmitFault).tvu = s.tvu := by
  unfold countTransmitFault
  dsimp only
  split <;> rfl
@[simp] theorem countTransmitFault_llu : (s.countTransmitFault).llu = s.llu := by
  unfold countTransmitFault
  dsimp only
  split <;> rfl
@[simp] theorem countTransmitFault_fru : (s.countTransmitFault).fru = s.fru := by
  unfold countTransmitFault
  dsimp only
  split <;> rfl
@[simp] theorem countTransmitFault_srh : (s.countTransmitFault).srh = s.srh := by
  unfold countTransmitFault
  dsimp only
  split <;> rfl
@[simp] theorem countTransmitFault_cfl : (s.countTransmitFault).cfl = s.cfl := by
  unfold countTransmitFault
  dsimp only
  split <;> rfl
@[simp] theorem countTransmitFault_pending : (s.countTransmitFault).pending = s.pending := by
  unfold countTransmitFault
  dsimp only
  split <;> rfl

@[simp] theorem acceptOwnFrame_sbs (c : Candidate) : (s.acceptOwnFrame c).sbs = s.sbs := by
  unfold acceptOwnFrame
  simp
@[simp] theorem acceptOwnFrame_asc (c : Candidate) : (s.acceptOwnFrame c).asc = s.asc := by
  unfold acceptOwnFrame
  simp
@[simp] theorem acceptOwnFrame_dcu (c : Candidate) : (s.acceptOwnFrame c).dcu = s.dcu := by
  unfold acceptOwnFrame
  simp
@[simp] theorem acceptOwnFrame_tvu (c : Candidate) : (s.acceptOwnFrame c).tvu = s.tvu := by
  unfold acceptOwnFrame
  simp
@[simp] theorem acceptOwnFrame_llu (c : Candidate) : (s.acceptOwnFrame c).llu = s.llu := by
  unfold acceptOwnFrame
  simp
@[simp] theorem acceptOwnFrame_srh (c : Candidate) : (s.acceptOwnFrame c).srh = s.srh := by
  unfold acceptOwnFrame
  simp
@[simp] theorem acceptOwnFrame_cfl (c : Candidate) : (s.acceptOwnFrame c).cfl = s.cfl := by
  unfold acceptOwnFrame
  simp
@[simp] theorem acceptOwnFrame_pending (c : Candidate) : (s.acceptOwnFrame c).pending = s.pending := by
  unfold acceptOwnFrame
  simp

@[simp] theorem lpiTick_sbs : (s.lpiTick).sbs = s.sbs := by
  unfold lpiTick
  repeat' split
  all_goals simp
@[simp] theorem lpiTick_asc : (s.lpiTick).asc = s.asc := by
  unfold lpiTick
  repeat' split
  all_goals simp
@[simp] theorem lpiTick_dcu : (s.lpiTick).dcu = s.dcu := by
  unfold lpiTick
  repeat' split
  all_goals simp
@[simp] theorem lpiTick_tvu : (s.lpiTick).tvu = s.tvu := by
  unfold lpiTick
  repeat' split
  all_goals simp
@[simp] theorem lpiTick_llu : (s.lpiTick).llu = s.llu := by
  unfold lpiTick
  repeat' split
  all_goals simp
@[simp] theorem lpiTick_srh : (s.lpiTick).srh = s.srh := by
  unfold lpiTick
  repeat' split
  all_goals simp
@[simp] theorem lpiTick_cfl : (s.lpiTick).cfl = s.cfl := by
  unfold lpiTick
  repeat' split
  all_goals simp
@[simp] theorem lpiTick_pending : (s.lpiTick).pending = s.pending := by
  unfold lpiTick
  repeat' split
  all_goals simp

@[simp] theorem countdownTick_ltu (n : LineId) : (s.countdownTick n).ltu = s.ltu := by
  unfold countdownTick
  repeat' split
  all_goals rfl
@[simp] theorem countdownTick_sbs (n : LineId) : (s.countdownTick n).sbs = s.sbs := by
  unfold countdownTick
  repeat' split
  all_goals rfl
@[simp] theorem countdownTick_mku (n : LineId) : (s.countdownTick n).mku = s.mku := by
  unfold countdownTick
  repeat' split
  all_goals rfl
@[simp] theorem countdownTick_tvu (n : LineId) : (s.countdownTick n).tvu = s.tvu := by
  unfold countdownTick
  repeat' split
  all_goals rfl
@[simp] theorem countdownTick_llu (n : LineId) : (s.countdownTick n).llu = s.llu := by
  unfold countdownTick
  repeat' split
  all_goals rfl
@[simp] theorem countdownTick_lpi (n : LineId) : (s.countdownTick n).lpi = s.lpi := by
  unfold countdownTick
  repeat' split
  all_goals rfl
@[simp] theorem countdownTick_srh (n : LineId) : (s.countdownTick n).srh = s.srh := by
  unfold countdownTick
  repeat' split
  all_goals rfl
@[simp] theorem countdownTick_cfl (n : LineId) : (s.countdownTick n).cfl = s.cfl := by
  unfold countdownTick
  repeat' split
  all_goals rfl
@[simp] theorem countdownTick_pending (n : LineId) : (s.countdownTick n).pending = s.pending := by
  unfold countdownTick
  repeat' split
  all_goals rfl

@[simp] theorem sampleTick_ltu (n : LineId) : (s.sampleTick n).ltu = s.ltu := by
  unfold sampleTick
  repeat' split
  all_goals simp
@[simp] theorem sampleTick_lpi (n : LineId) : (s.sampleTick n).lpi = s.lpi := by
  unfold sampleTick
  repeat' split
  all_goals simp
@[simp] theorem sampleTick_srh (n : LineId) : (s.sampleTick n).srh = s.srh := by
  unfold sampleTick
  repeat' split
  all_goals simp
@[simp] theorem sampleTick_cfl (n : LineId) : (s.sampleTick n).cfl = s.cfl := by
  unfold sampleTick
  repeat' split
  all_goals simp
@[simp] theorem sampleTick_pending (n : LineId) : (s.sampleTick n).pending = s.pending := by
  unfold sampleTick
  repeat' split
  all_goals simp

@[simp] theorem compareTick_ltu (n : LineId) : (s.compareTick n).ltu = s.ltu := by
  unfold compareTick
  repeat' split
  all_goals simp
@[simp] theorem compareTick_sbs (n : LineId) : (s.compareTick n).sbs = s.sbs := by
  unfold compareTick
  repeat' split
  all_goals simp
@[simp] theorem compareTick_mku (n : LineId) : (s.compareTick n).mku = s.mku := by
  unfold compareTick
  repeat' split
  all_goals simp
@[simp] theorem compareTick_asc (n : LineId) : (s.compareTick n).asc = s.asc := by
  unfold compareTick
  repeat' split
  all_goals simp
@[simp] theorem compareTick_dcu (n : LineId) : (s.compareTick n).dcu = s.dcu := by
  unfold compareTick
  repeat' split
  all_goals simp
@[simp] theorem compareTick_tvu (n : LineId) : (s.compareTick n).tvu = s.tvu := by
  unfold compareTick
  repeat' split
  all_goals simp
@[simp] theorem compareTick_lpi (n : LineId) : (s.compareTick n).lpi = s.lpi := by
  unfold compareTick
  repeat' split
  all_goals simp
@[simp] theorem compareTick_srh (n : LineId) : (s.compareTick n).srh = s.srh := by
  unfold compareTick
  repeat' split
  all_goals simp
@[simp] theorem compareTick_cfl (n : LineId) : (s.compareTick n).cfl = s.cfl := by
  unfold compareTick
  repeat' split
  all_goals simp
@[simp] theorem compareTick_pending (n : LineId) : (s.compareTick n).pending = s.pending := by
  unfold compareTick
  repeat' split
  all_goals simp

end Sys2Proof.Machine.State
end

