-- ==== Sys2Proof/Laws/Boundary.lean ====
section
/-! SUPPORT. What the cycle-boundary event (R10) does to each block, said once, and what an expiry leaves in the LTU (R9). -/

namespace Sys2Proof.Machine.State

variable (s : State)

/-! ### The event, block by block -/

/-- R21: the streak step is all that the boundary does to the LTU. -/
theorem boundary_ltu (byExpiry : Bool) (c : Word) : (s.boundary byExpiry c).ltu = { s.ltu with
    streak := if byExpiry && s.ltu.leadStray && !s.ltu.adopted then s.ltu.streak + 1 else 0
    leadStray := false, adopted := false } := by
  simp [boundary, streakStep, mapLtu]

@[simp] theorem boundary_now (byExpiry : Bool) (c : Word) : (s.boundary byExpiry c).now = s.now := by
  unfold now
  rw [boundary_ltu]

@[simp] theorem boundary_locked (byExpiry : Bool) (c : Word) : (s.boundary byExpiry c).locked = s.locked := by
  unfold locked running
  rw [boundary_ltu]
  simp

@[simp] theorem boundary_period (byExpiry : Bool) (c : Word) : (s.boundary byExpiry c).period = s.period := by
  unfold period
  rw [boundary_ltu]

theorem quietStep_same (h : s.lpi.state ≠ .muted) : s.quietStep = s := by
  simp [quietStep, muted, h]

/-- R153: outside MUTED the boundary leaves the LPI as it is. -/
theorem boundary_lpi (byExpiry : Bool) (c : Word) (h : s.lpi.state ≠ .muted) :
    (s.boundary byExpiry c).lpi = s.lpi := by
  unfold boundary
  rw [quietStep_same _ (by simpa using h)]
  simp

@[simp] theorem quietStep_transmission : s.quietStep.lpi.transmission = s.lpi.transmission := by
  unfold quietStep
  split_ifs <;> simp [endMute]

/-- R153: the boundary can only end a mute. -/
theorem quietStep_state : s.quietStep.lpi.state = s.lpi.state ∨ s.quietStep.lpi.state = .active := by
  unfold quietStep
  split_ifs <;> simp [endMute]

theorem boundary_state (byExpiry : Bool) (c : Word) :
    (s.boundary byExpiry c).lpi.state = s.lpi.state ∨ (s.boundary byExpiry c).lpi.state = .active := by
  unfold boundary
  simpa using quietStep_state ((s.streakStep byExpiry).shadowLoad.historyAppend c).startPulses

@[simp] theorem boundary_transmission (byExpiry : Bool) (c : Word) :
    (s.boundary byExpiry c).lpi.transmission = s.lpi.transmission := by
  unfold boundary
  simp

/-- R153: the quiet-cycle step, in the words of `QuietStepTaken`. -/
theorem quietStep_taken : s.lpi.QuietStepTaken s.quietStep.lpi := by
  unfold quietStep muted endMute
  refine ⟨fun h => ?_, fun h hf => ?_, fun h hf hq => ?_, fun h hf hq => ?_⟩
  · simp [h]
  · simp [h, hf]
  · have : ¬ Config.muteQuietCycles ≤ s.lpi.quietCycles + 1 := by simp only [Config.muteQuietCycles]; omega
    simp [h, hf, this]
  · have : Config.muteQuietCycles ≤ s.lpi.quietCycles + 1 := hq
    simp [h, hf, this]

/-- R153: the quiet-cycle step is all that the boundary does to the LPI. -/
theorem boundary_quietStepTaken (byExpiry : Bool) (c : Word) :
    s.lpi.QuietStepTaken (s.boundary byExpiry c).lpi := by
  have h := quietStep_taken ((s.streakStep byExpiry).shadowLoad.historyAppend c).startPulses
  simpa [boundary] using h

/-- R37: the shadow load is all that the boundary does to the SBS. -/
theorem boundary_sbs (byExpiry : Bool) (c : Word) : (s.boundary byExpiry c).sbs = s.shadowLoad.sbs := by
  simp [boundary]
  rfl

theorem historyAppend_of_tvu {s u : State} (c : Word) (h : u.tvu = s.tvu) :
    (u.historyAppend c).tvu = (s.historyAppend c).tvu := by
  unfold historyAppend
  rw [h]
  split
  · exact h
  · rfl

/-- R110: the history's append is all that the boundary does to the TVU. -/
theorem boundary_tvu (byExpiry : Bool) (c : Word) : (s.boundary byExpiry c).tvu = (s.historyAppend c).tvu := by
  have h : (s.boundary byExpiry c).tvu = ((s.streakStep byExpiry).shadowLoad.historyAppend c).tvu := by
    simp [boundary]
  rw [h]
  exact historyAppend_of_tvu c rfl

/-- R131: the pulses are all that the boundary does to the LLU. -/
theorem boundary_line (byExpiry : Bool) (c : Word) (n : LineId) :
    (s.boundary byExpiry c).line n = (s.line n).startPulse := by
  simp [boundary, startPulses, mapLines, line]

theorem boundary_record (byExpiry : Bool) (c : Word) (n : LineId) :
    ((s.boundary byExpiry c).line n).record = (s.line n).record := by
  rw [boundary_line]
  unfold LocalLine.startPulse
  split <;> rfl

/-- The whole event, in the words of `BoundaryTaken`. -/
theorem boundary_taken (u : State) (byExpiry : Bool) (c : Word) (h1 : u.sbs = s.sbs) (h2 : u.tvu = s.tvu)
    (h3 : u.llu = s.llu) : s.BoundaryTaken (u.boundary byExpiry c) c := by
  have hl : ∀ n, u.line n = s.line n := fun n => by simp [line, h3]
  have hb : (u.boundary byExpiry c).sbs = s.shadowLoad.sbs := by
    rw [boundary_sbs]
    unfold shadowLoad
    rw [h1]
  have ht : (u.boundary byExpiry c).tvu = (s.historyAppend c).tvu := by
    rw [boundary_tvu]
    exact historyAppend_of_tvu c h2
  refine ⟨?_, ?_, ?_, ?_, ?_, ?_, ?_, ?_⟩
  · intro e
    simp [entry, hb, shadowLoad]
  · rw [hb]; rfl
  · rw [hb]; rfl
  · rw [ht]; unfold historyAppend; split <;> rfl
  · rw [ht]; unfold historyAppend; split <;> rfl
  · intro h
    rw [ht]; unfold historyAppend; rw [if_pos h]
  · intro h
    rw [ht]; unfold historyAppend; rw [if_neg h]
  · intro n
    rw [boundary_line, hl]
    unfold LocalLine.startPulse functionOf
    split <;> simp_all

/-! ### The history's append (R110) -/

theorem consecutive_append (l : List HistoryEntry) (e : HistoryEntry) (h : ConsecutiveCycles l)
    (he : ∀ x, l.getLast? = some x → e.cycle = x.cycle + 1#32) : ConsecutiveCycles (l ++ [e]) := by
  induction l with
  | nil => trivial
  | cons a l ih =>
    cases l with
    | nil => exact ⟨he a rfl, trivial⟩
    | cons b r => exact ⟨h.1, ih h.2 (fun x hx => he x (by simpa using hx))⟩

theorem consecutive_drop (l : List HistoryEntry) (h : ConsecutiveCycles l) : ConsecutiveCycles (l.drop 1) := by
  cases l with
  | nil => trivial
  | cons a l =>
    cases l with
    | nil => trivial
    | cons b r => exact h.2

theorem consecutive_map (l : List HistoryEntry) (f : HistoryEntry → HistoryEntry) (hf : ∀ e, (f e).cycle = e.cycle)
    (h : ConsecutiveCycles l) : ConsecutiveCycles (l.map f) := by
  induction l with
  | nil => trivial
  | cons a l ih =>
    cases l with
    | nil => trivial
    | cons b r => exact ⟨by rw [hf, hf]; exact h.1, ih h.2⟩

/-! ### The expiry of a cycle (R9) -/

/-- The LTU after an expiry; the slot is set by the transmit state that the expiry leaves. -/
theorem expireCycle_ltu : s.expireCycle.ltu = { s.ltu with
    instant := { cycle := s.now.cycle + 1#32, phase := 0 }
    streak := if s.ltu.leadStray && !s.ltu.adopted then s.ltu.streak + 1 else 0
    leadStray := false, adopted := false, slot := slotAfterExpiry s.expireCycle.muted s.ltu.slot } := by
  have h := boundary_ltu (s.mapLtu fun l => { l with instant := { cycle := s.now.cycle + 1#32, phase := 0 } }) true
    (s.now.cycle + 1#32)
  have e : s.expireCycle.ltu = (fun l : Ltu => { l with slot := slotAfterExpiry s.expireCycle.muted l.slot })
      ((s.mapLtu fun l => { l with instant := { cycle := s.now.cycle + 1#32, phase := 0 } }).boundary true
        (s.now.cycle + 1#32)).ltu := rfl
  rw [e, h]
  rfl

/-- R153: the quiet-cycle step is all that an expiry does to the LPI. -/
theorem expireCycle_quietStepTaken : s.lpi.QuietStepTaken s.expireCycle.lpi :=
  boundary_quietStepTaken (s.mapLtu fun l => { l with instant := { cycle := s.now.cycle + 1#32, phase := 0 } }) true
    (s.now.cycle + 1#32)

end Sys2Proof.Machine.State
end

