-- ==== Sys2Proof/Laws/Schedules.lean ====
section
/-! SUPPORT. What filing, a turn of a pass, a pass and a cancellation can do, said once: the lemmas that proofs about the schedules cite. -/

namespace Sys2Proof.Machine

variable {δ : Type}

/-! ### Filing -/

theorem fileAction_perm (r : DomainRules δ) (a : Action δ) (l : List (Action δ)) :
    (fileAction r a l).Perm (a :: l) := by
  induction l with
  | nil => exact List.Perm.refl _
  | cons x rest ih =>
    unfold fileAction
    split
    · exact (ih.cons x).trans (List.Perm.swap a x rest)
    · exact List.Perm.refl _

@[simp] theorem mem_fileAction (r : DomainRules δ) (a b : Action δ) (l : List (Action δ)) :
    b ∈ fileAction r a l ↔ b = a ∨ b ∈ l := by
  rw [(fileAction_perm r a l).mem_iff, List.mem_cons]

@[simp] theorem length_fileAction (r : DomainRules δ) (a : Action δ) (l : List (Action δ)) :
    (fileAction r a l).length = l.length + 1 := by
  rw [(fileAction_perm r a l).length_eq, List.length_cons]

/-! ### Holders of a line -/

@[simp] theorem holders_nil (n : LineId) : holders n ([] : List (Action δ)) = 0 := rfl

theorem holders_cons (n : LineId) (a : Action δ) (l : List (Action δ)) :
    holders n (a :: l) = (a.held.get n).toNat + holders n l := by
  unfold holders
  cases h : a.held.get n <;> simp [h]; omega

theorem holders_perm (n : LineId) {l k : List (Action δ)} (h : l.Perm k) : holders n l = holders n k :=
  (h.filter _).length_eq

@[simp] theorem holders_fileAction (r : DomainRules δ) (n : LineId) (a : Action δ) (l : List (Action δ)) :
    holders n (fileAction r a l) = (a.held.get n).toNat + holders n l := by
  rw [holders_perm n (fileAction_perm r a l), holders_cons]

theorem holders_append (n : LineId) (l k : List (Action δ)) : holders n (l ++ k) = holders n l + holders n k := by
  unfold holders
  rw [List.filter_append, List.length_append]

/-! ### Passes -/

/-- What every due turn keeps, a pass keeps. -/
theorem Pool.passN_keeps (r : DomainRules δ) (templates : Table Template 16) {P : Pool δ → Prop}
    (turn : ∀ p a rest, P p → p.schedule = a :: rest → r.isDue a.due = true → P (fireHead r templates a rest p)) :
    ∀ (fuel : Nat) (p : Pool δ), P p → P (Pool.passN r templates fuel p) := by
  intro fuel
  induction fuel with
  | zero => exact fun p h => h
  | succ k ih =>
    intro p h
    unfold Pool.passN
    split
    · exact h
    · rename_i a rest e
      split
      · exact ih _ (turn p a rest h e ‹_›)
      · exact h

/-- What every due turn keeps, a whole pass keeps. -/
theorem Pool.pass_keeps (r : DomainRules δ) (templates : Table Template 16) {P : Pool δ → Prop}
    (turn : ∀ p a rest, P p → p.schedule = a :: rest → r.isDue a.due = true → P (fireHead r templates a rest p))
    (p : Pool δ) (h : P p) : P (p.pass r templates) :=
  Pool.passN_keeps r templates turn _ p h

/-- A pass of an empty schedule does nothing. -/
theorem Pool.pass_nil (r : DomainRules δ) (templates : Table Template 16) (p : Pool δ) (h : p.schedule = []) :
    p.pass r templates = p := by
  unfold Pool.pass
  rw [h]
  rfl

/-- The steps that the actions of a schedule have left: every turn of a pass makes them fewer. -/
def stepsLeft (l : List (Action δ)) : Nat := (l.map fun a => 4 - a.next.val).sum

theorem stepsLeft_perm {l k : List (Action δ)} (h : l.Perm k) : stepsLeft l = stepsLeft k := (h.map _).sum_eq

theorem stepsLeft_le (l : List (Action δ)) : stepsLeft l ≤ 4 * l.length := by
  induction l with
  | nil => simp [stepsLeft]
  | cons a r ih => simp [stepsLeft] at *; omega

theorem fireHead_stepsLeft (r : DomainRules δ) (templates : Table Template 16) (a : Action δ) (rest : List (Action δ))
    (p : Pool δ) : stepsLeft (fireHead r templates a rest p).schedule < stepsLeft (a :: rest) := by
  unfold fireHead
  dsimp only
  have := a.next.isLt
  split
  · simp [stepsLeft]
  · rename_i h
    rw [stepsLeft_perm (fileAction_perm _ _ _)]
    simp [stepsLeft, nextIndex]
    simp [Template.lastStep] at h
    omega

/-- Fuel beyond the steps left changes nothing. -/
theorem Pool.passN_fuel (r : DomainRules δ) (templates : Table Template 16) :
    ∀ (f g : Nat) (p : Pool δ), stepsLeft p.schedule ≤ f → stepsLeft p.schedule ≤ g →
      Pool.passN r templates f p = Pool.passN r templates g p := by
  have stop : ∀ (g : Nat) (p : Pool δ), stepsLeft p.schedule ≤ 0 → Pool.passN r templates g p = p := by
    intro g p h
    cases g with
    | zero => rfl
    | succ g =>
      unfold Pool.passN
      split
      · rfl
      · rename_i a rest e
        rw [e] at h
        simp only [stepsLeft, List.map_cons, List.sum_cons] at h
        have := a.next.isLt
        omega
  intro f
  induction f with
  | zero => exact fun g p h _ => (stop g p h).symm
  | succ f ih =>
    intro g p hf hg
    cases g with
    | zero => exact stop (f + 1) p hg
    | succ g =>
      unfold Pool.passN
      split
      · rfl
      · rename_i a rest e
        rw [e] at hf hg
        split
        · have := fireHead_stepsLeft r templates a rest p
          exact ih g _ (by omega) (by omega)
        · rfl

/-! ### Cancellation -/

theorem cancelList_schedule (w : Action δ → Bool) (l : List (Action δ)) (f : List (Fin 48)) (d : Dcu) :
    (cancelList w l f d).schedule = l.filter fun a => !w a := by
  induction l generalizing f d with
  | nil => rfl
  | cons a rest ih =>
    unfold cancelList
    split
    · rw [ih, List.filter_cons_of_neg (by simp_all)]
    · rw [List.filter_cons_of_pos (by simp_all)]
      simp [ih]

theorem cancelList_free (w : Action δ → Bool) (l : List (Action δ)) (f : List (Fin 48)) (d : Dcu) :
    (cancelList w l f d).free = ((l.filter w).map Action.slot).reverse ++ f := by
  induction l generalizing f d with
  | nil => rfl
  | cons a rest ih =>
    unfold cancelList
    split
    · rw [ih, List.filter_cons_of_pos ‹_›]
      simp
    · rw [List.filter_cons_of_neg ‹_›]
      simp [ih]

theorem cancelList_dcu (w : Action δ → Bool) (l : List (Action δ)) (f : List (Fin 48)) (d : Dcu) :
    (cancelList w l f d).dcu = (l.filter w).foldl (fun d a => d.releaseAll a.held) d := by
  induction l generalizing f d with
  | nil => rfl
  | cons a rest ih =>
    unfold cancelList
    split
    · rw [ih, List.filter_cons_of_pos ‹_›]
      rfl
    · rw [List.filter_cons_of_neg ‹_›]
      simp [ih]

/-! ### Claims -/

@[simp] theorem DriveLine.addClaim_claim (d : DriveLine) : d.addClaim.claim = d.claim + 1 := by
  unfold DriveLine.addClaim
  split
  · simp_all
  · rfl

@[simp] theorem DriveLine.addClaim_limit (d : DriveLine) : d.addClaim.limit = d.limit := by
  unfold DriveLine.addClaim
  split <;> rfl

@[simp] theorem DriveLine.dropClaim_claim (d : DriveLine) : d.dropClaim.claim = d.claim - 1 := rfl

@[simp] theorem DriveLine.dropClaim_limit (d : DriveLine) : d.dropClaim.limit = d.limit := rfl

/-- A fired step's effect on every claim count. -/
theorem Dcu.fire_claim (d : Dcu) (op : StepOp) (m n : LineId) :
    ((d.fire op m).lines.get n).claim =
      if n = m then (match op with
        | .assert => (d.lines.get n).claim + 1
        | .release => (d.lines.get n).claim - 1
        | .noOp => (d.lines.get n).claim)
      else (d.lines.get n).claim := by
  unfold Dcu.fire Dcu.onLine
  by_cases h : n = m
  · subst h; cases op <;> simp
  · cases op <;> simp [h, Table.get_modify_ne _ _ h]

/-- A cancellation's effect on every claim count. -/
theorem Dcu.releaseAll_claim (d : Dcu) (held : HeldSet) (n : LineId) :
    ((d.releaseAll held).lines.get n).claim = (d.lines.get n).claim - (held.get n).toNat := by
  unfold Dcu.releaseAll
  cases h : held.get n <;> simp [h]

/-- The claim counts after a run of cancellations. -/
theorem foldl_releaseAll_claim (l : List (Action δ)) (d : Dcu) (n : LineId) :
    ((l.foldl (fun d a => d.releaseAll a.held) d).lines.get n).claim = (d.lines.get n).claim - holders n l := by
  induction l generalizing d with
  | nil => rfl
  | cons a rest ih =>
    rw [List.foldl_cons, ih, Dcu.releaseAll_claim, holders_cons]
    omega

end Sys2Proof.Machine
end

