-- ==== Sys2Proof/Laws/Claims.lean ====
section
/-! SUPPORT. The claim counts and the held sets of pending actions (R64, R92): what a turn of a pass, a pass, an admission and a cancellation keep of their agreement. -/

namespace Sys2Proof.Machine

variable {δ : Type}

/-! ### The ordering conditions, step by step (R29) -/

theorem orderRun_append (l k : List TemplateStep) (h : HeldSet) :
    orderRun (l ++ k) h = (orderRun l h).bind (orderRun k) := by
  induction l generalizing h with
  | nil => rfl
  | cons x rest ih =>
    simp only [List.cons_append, orderRun]
    split
    · split
      · rfl
      · exact ih _
    · split
      · exact ih _
      · rfl
    · rfl

theorem Template.heldBefore_zero (t : Template) : t.heldBefore 0 = some noLines := rfl

/-- A well-formed template's step in use is an ASSERT of a line not held or a RELEASE of a held one, and takes the held
set to the one before the next step. -/
theorem Template.heldBefore_succ (t : Template) (k : Fin 4) (held : HeldSet) (h : t.orderingHolds = true)
    (hk : k.val < t.count) (hb : t.heldBefore k.val = some held) :
    (((t.steps.get k).op = .assert ∧ held.get (t.steps.get k).line = false) ∨
      ((t.steps.get k).op = .release ∧ held.get (t.steps.get k).line = true)) ∧
    t.heldBefore (k.val + 1) = some (heldAfter (t.steps.get k).op (t.steps.get k).line held) := by
  unfold Template.orderingHolds at h
  simp only [Bool.and_eq_true, beq_iff_eq, decide_eq_true_eq] at h
  obtain ⟨_, hrun⟩ := h
  have hlen : k.val < t.steps.items.length := by rw [t.steps.size]; exact k.isLt
  have hget : t.steps.get k = t.steps.items[k.val] := rfl
  have hsucc : t.heldBefore (k.val + 1) = orderRun [t.steps.get k] held := by
    unfold Template.heldBefore at *
    rw [List.take_succ_eq_append_getElem hlen, orderRun_append, hb]
    rfl
  have hsome : t.heldBefore (k.val + 1) ≠ none := by
    intro hn
    unfold Template.heldBefore Template.stepsInUse at *
    have hsplit : t.steps.items.take t.count =
        t.steps.items.take (k.val + 1) ++ (t.steps.items.take t.count).drop (k.val + 1) := by
      rw [← List.take_append_drop (k.val + 1) (t.steps.items.take t.count), List.take_take,
        Nat.min_eq_left hk, List.drop_append_of_le_length (by simp; omega)]
      simp
    rw [hsplit, orderRun_append, hn] at hrun
    exact absurd hrun (by simp)
  rw [hsucc] at hsome ⊢
  unfold orderRun orderRun at *
  cases hop : (t.steps.get k).op <;> cases hl : held.get (t.steps.get k).line <;>
    simp_all [heldAfter]

/-- After the last step of a well-formed template nothing is held. -/
theorem Template.heldBefore_count (t : Template) (h : t.orderingHolds = true) :
    t.heldBefore t.count = some noLines := by
  unfold Template.orderingHolds at h
  simp only [Bool.and_eq_true, beq_iff_eq] at h
  exact h.2

theorem Template.count_range (t : Template) (h : t.orderingHolds = true) : 1 ≤ t.count ∧ t.count ≤ 4 := by
  unfold Template.orderingHolds at h
  simp only [Bool.and_eq_true, decide_eq_true_eq] at h
  exact h.1

@[simp] theorem noLines_get (n : LineId) : noLines.get n = false := by simp [noLines]

theorem heldAfter_get (op : StepOp) (m n : LineId) (held : HeldSet) :
    (heldAfter op m held).get n =
      if n = m then (match op with | .assert => true | .release => false | .noOp => held.get n)
      else held.get n := by
  unfold heldAfter
  cases op <;> by_cases h : n = m <;> simp [h, Table.get_set]

/-! ### Pools -/

/-- The claim counts of a pool count the holders of its own schedule and `other n` holders elsewhere. -/
def Pool.Sound (templates : Table Template 16) (other : LineId → Nat) (p : Pool δ) : Prop :=
  (∀ a ∈ p.schedule, a.Fits templates) ∧ ∀ n, (p.dcu.lines.get n).claim = holders n p.schedule + other n

/-- A due turn keeps the agreement (R77 to R79, R92). -/
theorem fireHead_sound (r : DomainRules δ) (templates : Table Template 16) (other : LineId → Nat)
    (p : Pool δ) (a : Action δ) (rest : List (Action δ)) (hp : p.Sound templates other)
    (e : p.schedule = a :: rest) : (fireHead r templates a rest p).Sound templates other := by
  obtain ⟨hfit, hclaim⟩ := hp
  rw [e] at hfit hclaim
  obtain ⟨ho, hk, hb⟩ := hfit a (List.mem_cons_self ..)
  have hrest : ∀ b ∈ rest, b.Fits templates := fun b hb' => hfit b (List.mem_cons_of_mem _ hb')
  obtain ⟨hop, hnext⟩ := Template.heldBefore_succ _ a.next a.held ho hk hb
  have hrange := Template.count_range _ ho
  have hmoved : ∀ n, ((p.dcu.fire ((templates.get a.template).steps.get a.next).op
      ((templates.get a.template).steps.get a.next).line).lines.get n).claim =
      ((heldAfter ((templates.get a.template).steps.get a.next).op
        ((templates.get a.template).steps.get a.next).line a.held).get n).toNat + holders n rest + other n := by
    intro n
    rw [Dcu.fire_claim, heldAfter_get, hclaim n, holders_cons]
    by_cases hn : n = ((templates.get a.template).steps.get a.next).line
    · rcases hop with ⟨h1, h2⟩ | ⟨h1, h2⟩
      · rw [h1]; subst hn; simp [h2]; omega
      · rw [h1]; subst hn; simp [h2]; omega
    · simp [hn]
  unfold fireHead
  dsimp only
  split
  · rename_i hlast
    refine ⟨hrest, fun n => ?_⟩
    have hc : a.next.val + 1 = (templates.get a.template).count := by
      simp only [Template.lastStep, decide_eq_true_eq] at hlast
      omega
    rw [hc, Template.heldBefore_count _ ho, Option.some.injEq] at hnext
    have := hmoved n
    rw [← hnext] at this
    simpa using this
  · rename_i hlast
    have hni : (nextIndex a.next).val = a.next.val + 1 := by
      simp only [Template.lastStep, decide_eq_true_eq, not_or] at hlast
      unfold nextIndex
      have := a.next.isLt
      simp only
      omega
    refine ⟨fun b hb' => ?_, fun n => ?_⟩
    · rw [mem_fileAction] at hb'
      rcases hb' with rfl | hb'
      · refine ⟨ho, ?_, ?_⟩
        · simp only [Template.lastStep, decide_eq_true_eq, not_or] at hlast
          simp only [hni]
          omega
        · simp only [hni]
          exact hnext
      · exact hrest b hb'
    · rw [holders_fileAction]
      exact hmoved n

theorem pass_sound (r : DomainRules δ) (templates : Table Template 16) (other : LineId → Nat) (p : Pool δ)
    (h : p.Sound templates other) : (p.pass r templates).Sound templates other :=
  Pool.pass_keeps r templates (fun q a rest hq e _ => fireHead_sound r templates other q a rest hq e) p h

/-- A cancellation keeps the agreement (R81, R93). -/
theorem cancelList_sound (templates : Table Template 16) (other : LineId → Nat) (w : Action δ → Bool)
    (l : List (Action δ)) (f : List (Fin 48)) (d : Dcu)
    (h : Pool.Sound templates other { schedule := l, free := f, dcu := d }) :
    (cancelList w l f d).Sound templates other := by
  obtain ⟨hfit, hclaim⟩ := h
  refine ⟨fun a ha => ?_, fun n => ?_⟩
  · rw [cancelList_schedule] at ha
    exact hfit a (List.mem_of_mem_filter ha)
  · rw [cancelList_schedule, cancelList_dcu, foldl_releaseAll_claim, hclaim n]
    have : holders n l = holders n (l.filter w) + holders n (l.filter fun a => !w a) := by
      rw [← holders_append]
      exact holders_perm n (List.filter_append_perm w l).symm
    simp only [this]
    omega

/-! ### The operations of the station -/

namespace State

theorem claims_time (s : State) : s.ClaimsSound ↔ s.sbs.TemplatesFit ∧
    (∀ a ∈ s.asc.travel, a.Fits s.sbs.templates) ∧
    s.timePool.Sound s.sbs.templates (fun n => holders n s.asc.travel) := by
  unfold ClaimsSound Pool.Sound ClaimsMatch timePool
  simp only [drive]
  tauto

theorem claims_travel (s : State) : s.ClaimsSound ↔ s.sbs.TemplatesFit ∧
    (∀ a ∈ s.asc.time, a.Fits s.sbs.templates) ∧
    s.travelPool.Sound s.sbs.templates (fun n => holders n s.asc.time) := by
  unfold ClaimsSound Pool.Sound ClaimsMatch travelPool
  simp only [drive]
  have : (∀ n, (s.dcu.lines.get n).claim = holders n s.asc.time + holders n s.asc.travel) ↔
      ∀ n, (s.dcu.lines.get n).claim = holders n s.asc.travel + holders n s.asc.time :=
    forall_congr' fun n => by rw [Nat.add_comm]
  tauto

/-- What agrees with a sound state in subscriptions, schedules and claim counts is sound. -/
theorem claims_of_same {s t : State} (hb : t.sbs.TemplatesFit) (hk : t.sbs.templates = s.sbs.templates)
    (ht : t.asc.time = s.asc.time) (hr : t.asc.travel = s.asc.travel)
    (hd : ∀ n, (t.drive n).claim = (s.drive n).claim) (h : s.ClaimsSound) : t.ClaimsSound := by
  obtain ⟨_, h2, h3, h4⟩ := h
  refine ⟨hb, ?_, ?_, fun n => ?_⟩
  · rw [ht, hk]; exact h2
  · rw [hr, hk]; exact h3
  · rw [hd n, ht, hr]; exact h4 n

theorem claims_of_eq {s t : State} (hb : t.sbs = s.sbs) (ha : t.asc = s.asc) (hd : t.dcu = s.dcu)
    (h : s.ClaimsSound) : t.ClaimsSound :=
  claims_of_same (hb ▸ h.1) (by rw [hb]) (by rw [ha]) (by rw [ha]) (fun n => by simp [drive, hd]) h

theorem timePass_claims (s : State) (h : s.ClaimsSound) : s.timePass.ClaimsSound := by
  rw [claims_time] at h ⊢
  exact ⟨h.1, h.2.1, pass_sound s.timeDomain s.sbs.templates _ s.timePool h.2.2⟩

theorem travelPass_claims (s : State) (h : s.ClaimsSound) : s.travelPass.ClaimsSound := by
  rw [claims_travel] at h ⊢
  exact ⟨h.1, h.2.1, pass_sound s.travelDomain s.sbs.templates _ s.travelPool h.2.2⟩

theorem cancelWhere_claims (s : State) (w : HeldSet → Bool) (h : s.ClaimsSound) :
    (s.cancelWhere w).ClaimsSound := by
  unfold cancelWhere
  have h1 : (s.putTimePool (cancelList (fun a => w a.held) s.asc.time s.asc.free s.dcu)).ClaimsSound := by
    rw [claims_time] at h ⊢
    exact ⟨h.1, h.2.1, cancelList_sound s.sbs.templates _ _ s.asc.time s.asc.free s.dcu h.2.2⟩
  generalize s.putTimePool (cancelList (fun a => w a.held) s.asc.time s.asc.free s.dcu) = u at *
  dsimp only
  rw [claims_travel] at h1 ⊢
  exact ⟨h1.1, h1.2.1, cancelList_sound u.sbs.templates _ _ u.asc.travel u.asc.free u.dcu h1.2.2⟩

/-- A fresh action of a well-formed template fits it, and holds nothing. -/
theorem newAction_fits (templates : Table Template 16) (slot : Fin 48) (due : δ) (k : Fin 16)
    (h : (templates.get k).orderingHolds = true) : (newAction slot due k).Fits templates :=
  ⟨h, (Template.count_range _ h).1, rfl⟩

@[simp] theorem newAction_held (slot : Fin 48) (due : δ) (k : Fin 16) (n : LineId) :
    (newAction slot due k).held.get n = false := by
  simp [newAction]

theorem admitTime_claims (s : State) (due : Instant) (k : Fin 16)
    (hk : (s.sbs.templates.get k).orderingHolds = true) (h : s.ClaimsSound) : (s.admitTime due k).ClaimsSound := by
  unfold admitTime
  split
  · exact claims_of_eq (s := s) rfl rfl rfl h
  · split
    · exact claims_of_eq (s := s) rfl rfl rfl h
    · rename_i slot free e
      have : State.ClaimsSound { s with asc := { s.asc with
          free := free, time := fileAction s.timeDomain (newAction slot due k) s.asc.time } } := by
        obtain ⟨h1, h2, h3, h4⟩ := h
        refine ⟨h1, fun a ha => ?_, h3, fun n => ?_⟩
        · rw [mem_fileAction] at ha
          rcases ha with rfl | ha
          · exact newAction_fits _ _ _ _ hk
          · exact h2 a ha
        · rw [holders_fileAction, newAction_held]
          simpa [drive] using h4 n
      dsimp only
      split
      · exact timePass_claims _ (claims_of_eq (s := _) rfl rfl rfl this)
      · exact this

theorem admitTravel_claims (s : State) (due : Word) (k : Fin 16)
    (hk : (s.sbs.templates.get k).orderingHolds = true) (h : s.ClaimsSound) :
    (s.admitTravel due k).ClaimsSound := by
  unfold admitTravel
  split
  · exact claims_of_eq (s := s) rfl rfl rfl h
  · split
    · exact claims_of_eq (s := s) rfl rfl rfl h
    · rename_i slot free e
      have : State.ClaimsSound { s with asc := { s.asc with
          free := free, travel := fileAction s.travelDomain (newAction slot due k) s.asc.travel } } := by
        obtain ⟨h1, h2, h3, h4⟩ := h
        refine ⟨h1, h2, fun a ha => ?_, fun n => ?_⟩
        · rw [mem_fileAction] at ha
          rcases ha with rfl | ha
          · exact newAction_fits _ _ _ _ hk
          · exact h3 a ha
        · rw [holders_fileAction, newAction_held]
          simpa [drive] using h4 n
      dsimp only
      split
      · exact travelPass_claims _ (claims_of_eq (s := _) rfl rfl rfl this)
      · exact this

/-! ### Moved due points and the travel schedule -/

theorem holders_map (n : LineId) (f : Action δ → Action δ) (hf : ∀ a, (f a).held = a.held) (l : List (Action δ)) :
    holders n (l.map f) = holders n l := by
  unfold holders
  rw [List.filter_map]
  simp [Function.comp_def, hf]

theorem fits_map (templates : Table Template 16) (f : Action δ → Action δ)
    (hf : ∀ a, (f a).held = a.held ∧ (f a).next = a.next ∧ (f a).template = a.template) (l : List (Action δ))
    (h : ∀ a ∈ l, a.Fits templates) : ∀ a ∈ l.map f, a.Fits templates := by
  intro a ha
  rw [List.mem_map] at ha
  obtain ⟨b, hb, rfl⟩ := ha
  obtain ⟨h1, h2, h3⟩ := hf b
  unfold Action.Fits
  rw [h1, h2, h3]
  exact h b hb

theorem tailTest_claims (s : State) (h : s.ClaimsSound) : s.tailTest.ClaimsSound := by
  unfold tailTest
  split
  · exact h
  · rename_i a e
    split
    · have hl : s.asc.travel = s.asc.travel.dropLast ++ [a] := (List.dropLast_append_getLast? a e).symm
      have hp : (a :: s.asc.travel.dropLast).Perm s.asc.travel := by
        conv_rhs => rw [hl]
        exact (List.perm_append_singleton _ _).symm
      obtain ⟨h1, h2, h3, h4⟩ := h
      refine ⟨h1, h2, fun b hb => h3 b (hp.mem_iff.1 hb), fun n => ?_⟩
      rw [holders_perm n hp]
      exact h4 n
    · exact h

theorem countChange_claims (s : State) (d : CountChange) (h : s.ClaimsSound) : (s.countChange d).ClaimsSound := by
  cases d
  · exact travelPass_claims _ (claims_of_eq (s := s) rfl rfl rfl h)
  · exact travelPass_claims _ (tailTest_claims _ (claims_of_eq (s := s) rfl rfl rfl h))

theorem zeroRebase_claims (s : State) (h : s.ClaimsSound) : s.zeroRebase.ClaimsSound := by
  obtain ⟨h1, h2, h3, h4⟩ := h
  refine ⟨h1, h2, fits_map _ (fun a => { a with due := a.due - s.tvu.position }) (fun a => ⟨rfl, rfl, rfl⟩) _ h3,
    fun n => ?_⟩
  change (s.drive n).claim = holders n s.asc.time + holders n (s.asc.travel.map _)
  rw [holders_map]
  · exact h4 n
  · intro; rfl

theorem shiftTimeSchedule_claims (s : State) (ticks : Nat) (h : s.ClaimsSound) :
    (s.shiftTimeSchedule ticks).ClaimsSound := by
  obtain ⟨h1, h2, h3, h4⟩ := h
  refine ⟨h1, fits_map _ (fun a => { a with due := Instant.add s.period a.due ticks })
    (fun a => ⟨rfl, rfl, rfl⟩) _ h2, h3, fun n => ?_⟩
  change (s.drive n).claim = holders n (s.asc.time.map _) + holders n s.asc.travel
  rw [holders_map]
  · exact h4 n
  · intro; rfl

/-! ### Marks -/

theorem requestFor_claims (s : State) (i : Fin 64) (capture : Instant) (position : Option Word)
    (hv : (s.entry i).valid = true) (h : s.ClaimsSound) : (s.requestFor i capture position).ClaimsSound := by
  unfold requestFor
  dsimp only
  have ho := h.1 i hv
  split
  · exact admitTime_claims _ _ _ ho h
  · split
    · exact claims_of_eq (s := s) rfl rfl rfl h
    · exact admitTravel_claims _ _ _ ho h

/-- The sequence test writes nothing of the SBS but a last-seen sequence (R55). -/
theorem sequenceTest_entry (s : State) (i : Fin 64) (seq : Byte) (t : State) (e : s.sequenceTest i seq = some t) :
    t.sbs.templates = s.sbs.templates ∧
      ∀ j, (t.entry j).valid = (s.entry j).valid ∧ (t.entry j).template = (s.entry j).template := by
  have key : ∀ u : State, u.sbs = (s.sawSequence i seq).sbs → u.sbs.templates = s.sbs.templates ∧
      ∀ j, (u.entry j).valid = (s.entry j).valid ∧ (u.entry j).template = (s.entry j).template := by
    intro u hu
    refine ⟨by rw [hu]; rfl, fun j => ?_⟩
    unfold entry
    rw [hu]
    simp only [sawSequence, mapEntry]
    rw [Table.get_modify]
    split
    · subst_vars; simp
    · simp
  unfold sequenceTest at e
  split at e
  · cases e; exact key _ rfl
  · split at e
    · cases e
    · split at e <;> cases e
      · exact key _ rfl
      · exact key _ rfl

theorem sequenceTest_claims (s : State) (i : Fin 64) (seq : Byte) (t : State) (e : s.sequenceTest i seq = some t)
    (h : s.ClaimsSound) : t.ClaimsSound := by
  obtain ⟨k1, k2⟩ := sequenceTest_entry s i seq t e
  have ha := sequenceTest_asc _ _ _ _ e
  refine claims_of_same (s := s) ?_ k1 (by rw [ha]) (by rw [ha])
    (fun n => by simp [drive, sequenceTest_dcu _ _ _ _ e]) h
  intro j hj
  change (t.entry j).valid = true at hj
  change (t.sbs.templates.get (t.entry j).template).orderingHolds = true
  rw [(k2 j).1] at hj
  rw [k1, (k2 j).2]
  exact h.1 j hj

theorem lookup_valid (s : State) (source : Address) (channel : Fin 8) (i : Fin 64)
    (e : s.lookup source channel = some i) : (s.entry i).valid = true := by
  unfold lookup at e
  split at e
  · cases e
  · split at e
    · cases e; assumption
    · cases e

/-- A mark, by either route, keeps the agreement (R52 to R60). -/
theorem processMark_claims (s : State) (source : Address) (channel : Fin 8) (seq : Byte) (capture : Instant)
    (position : State → Option Word) (h : s.ClaimsSound) :
    (s.processMark source channel seq capture position).ClaimsSound := by
  unfold processMark
  split
  · exact h
  · rename_i i hl
    split
    · exact claims_of_eq (s := s) rfl rfl rfl h
    · rename_i s1 e
      have h1 := sequenceTest_claims _ _ _ _ e h
      split
      · refine requestFor_claims _ _ _ _ ?_ h1
        rw [((sequenceTest_entry _ _ _ _ e).2 i).1]
        exact lookup_valid _ _ _ _ hl
      · exact h1

/-! ### The cycle-boundary event -/

theorem boundary_claims (s : State) (byExpiry : Bool) (c : Word) (h : s.ClaimsSound) :
    (s.boundary byExpiry c).ClaimsSound := by
  have e := boundary_sbs s byExpiry c
  refine claims_of_same (s := s) ?_ (by rw [e]; rfl) (by simp) (by simp) (fun n => by simp [drive]) h
  rw [e]
  intro j hj
  have := h.1 j
  simp only [shadowLoad, Table.get_map] at hj ⊢
  exact this hj

end State

end Sys2Proof.Machine
end

