-- ==== Sys2Proof/Laws/Link.lean ====
section
/-! SUPPORT. The image read (R182): the steps of an answered read, its length, and the bytes that it brings. -/

namespace Sys2Proof

namespace SerialMemory

variable {m : SerialMemory}

/-- R183: a memory answers when CSDA reads high in time and no acknowledgement reads high. -/
theorem answers_iff : m.answers = true ↔ m.pulses ≤ 9 ∧ m.refuses = none := by
  unfold answers lineFree
  rw [Bool.and_eq_true, decide_eq_true_iff, Option.isNone_iff_eq_none]
  exact Iff.rfl

end SerialMemory

namespace Machine

/-- A read that no acknowledgement ends goes through every step. -/
@[simp] theorem upToRefusal_none (l : List LinkStep) : upToRefusal none l = l := by
  induction l with
  | nil => rfl
  | cons x l ih =>
    unfold upToRefusal
    rw [if_neg (fun h => h.1 h.2), ih]

/-- Behind a run of steps that have ended stand the steps of what follows. -/
theorem stepsEnded_append (a b : List LinkStep) (k : Nat) :
    stepsEnded (a ++ b) ((a.map LinkStep.bitTimes).sum + k) = a ++ stepsEnded b k := by
  induction a with
  | nil => simp
  | cons x a ih =>
    simp only [List.cons_append, List.map_cons, List.sum_cons]
    rw [stepsEnded, if_pos (by omega),
      show x.bitTimes + (a.map LinkStep.bitTimes).sum + k - x.bitTimes = (a.map LinkStep.bitTimes).sum + k by omega, ih]

/-- After the bit times of all its steps a run of steps has ended. -/
theorem stepsEnded_all (a : List LinkStep) : stepsEnded a (a.map LinkStep.bitTimes).sum = a := by
  simpa [stepsEnded] using stepsEnded_append a [] 0

theorem transfer_data : transfer.countP LinkStep.isData = 760 := by
  unfold transfer
  rw [List.countP_append, List.countP_map, show LinkStep.isData ∘ LinkStep.dataByte = fun _ => true from rfl]
  simp [LinkStep.isData, Config.imageBytes]

theorem transfer_bitTimes : (transfer.map LinkStep.bitTimes).sum = 6841 := by
  unfold transfer
  rw [List.map_append, List.map_map, List.sum_append, show LinkStep.bitTimes ∘ LinkStep.dataByte = fun _ => 9 from rfl,
    List.map_const', List.sum_replicate, List.length_range]
  rfl

/-- R182: the steps of an answered read. -/
theorem script_of_answers {m : SerialMemory} (h : m.answers = true) :
    m.script = List.replicate m.pulses LinkStep.recoveryPulse ++ (addressing ++ transfer) := by
  obtain ⟨h1, h2⟩ := SerialMemory.answers_iff.1 h
  have hf : m.lineFree = true := decide_eq_true (show m.pulses ≤ Config.recoveryPulses from h1)
  unfold SerialMemory.script
  rw [h, hf, h2, upToRefusal_none, Nat.min_eq_left (show m.pulses ≤ Config.recoveryPulses from h1)]
  simp

theorem deliveredImage_length (b : List Byte) : (deliveredImage b).length = 760 := by
  unfold deliveredImage
  rw [List.length_take, List.length_append, List.length_replicate, show Config.imageBytes = 760 from rfl]
  omega

/-- R182: an answered read brings the whole image. -/
theorem receivedBytes_all {m : SerialMemory} (h : m.answers = true) :
    receivedBytes m m.readTicks = deliveredImage m.bytes := by
  unfold receivedBytes SerialMemory.readTicks
  have hr : (List.replicate m.pulses LinkStep.recoveryPulse).countP LinkStep.isData = 0 := by
    rw [List.countP_eq_zero]
    intro a ha
    rw [List.eq_of_mem_replicate ha]
    decide
  rw [Nat.mul_div_cancel_left _ (by decide), stepsEnded_all, script_of_answers h, List.countP_append,
    List.countP_append, hr, transfer_data, show addressing.countP LinkStep.isData = 0 by decide]
  exact List.take_of_length_le (deliveredImage_length _).le

/-- R182: an answered read takes 6,879 bit times of ten ticks, and one more for each recovery pulse. -/
theorem readTicks_of_answers {m : SerialMemory} (h : m.answers = true) : m.readTicks = 68790 + 10 * m.pulses := by
  unfold SerialMemory.readTicks
  rw [script_of_answers h, List.map_append, List.map_append, List.sum_append, List.sum_append, transfer_bitTimes,
    List.map_replicate, List.sum_replicate,
    show (addressing.map LinkStep.bitTimes).sum = 38 by decide]
  simp only [LinkStep.bitTimes, Config.linkTicksPerBit, smul_eq_mul]
  omega

end Machine

end Sys2Proof
end

