-- ==== Sys2Proof/Laws/Readings.lean ====
section
/-! SUPPORT. The words of Safety about lookups, qualifiers, edge kinds and count changes, said of the model's own functions. -/

namespace Sys2Proof.Machine

theorem EdgeSelection.selects_iff (e : EdgeSelection) (level : Level) : e.selects level = true ↔ e.Picks level := by
  cases e <;> cases level <;> simp [EdgeSelection.selects, EdgeSelection.Picks]

theorem EdgeSelection.selects_false_iff (e : EdgeSelection) (level : Level) :
    e.selects level = false ↔ ¬e.Picks level := by
  rw [← EdgeSelection.selects_iff, Bool.not_eq_true]

namespace State

theorem qualifierMet_iff (s : State) (q : Option Qualifier) : s.qualifierMet q = true ↔ s.QualifierHolds q := by
  cases q <;> simp [qualifierMet, QualifierHolds]

theorem qualifierMet_false_iff (s : State) (q : Option Qualifier) :
    s.qualifierMet q = false ↔ ¬s.QualifierHolds q := by
  rw [← qualifierMet_iff, Bool.not_eq_true]

theorem lookup_iff (s : State) (source : Address) (channel : Fin 8) (i : Fin 64) :
    s.lookup source channel = some i ↔ s.Names source channel.val i := by
  unfold lookup Names
  cases hm : s.sbs.sourceMap.get ⟨source.toNat, source.isLt⟩ with
  | none => simp
  | some bank =>
    have hi : entryIndex bank channel = i ↔ i.val = bank.val * 8 + channel.val := by
      rw [Fin.ext_iff]
      exact eq_comm
    dsimp only
    constructor
    · intro h
      split at h
      · next hv =>
        obtain rfl := Option.some.inj h
        exact ⟨bank, rfl, rfl, hv⟩
      · cases h
    · rintro ⟨b, hb, hib, hv⟩
      obtain rfl := Option.some.inj hb
      rw [hi.mpr hib, if_pos hv]

theorem lookup_none_iff (s : State) (source : Address) (channel : Fin 8) :
    s.lookup source channel = none ↔ ∀ i, ¬s.Names source channel.val i := by
  rw [Option.eq_none_iff_forall_ne_some]
  exact forall_congr' fun i => not_congr (s.lookup_iff source channel i)

/-- R69, R75: everything that a count change does, in the words of `CountTaken`. -/
theorem countChange_taken (s : State) (d : CountChange) : s.CountTaken (s.countChange d) d := by
  cases d with
  | forward => exact ⟨rfl, rfl, rfl⟩
  | backward =>
    refine ⟨fun h => ?_, fun front a h => ⟨fun hw => ?_, fun hw => ?_⟩⟩
    · simp only [countChange, tailTest, h, List.getLast?_nil]
      refine ⟨?_, ?_, rfl⟩ <;> simp [travelPass, putTravelPool, travelPool, travelDomain, h]
    · simp only [countChange, tailTest, h, List.getLast?_concat, List.dropLast_concat, hw, if_true]
      exact ⟨rfl, rfl, rfl⟩
    · simp only [countChange, tailTest, h, List.getLast?_concat, hw, if_false]
      refine ⟨?_, ?_, rfl⟩ <;> simp [travelPass, putTravelPool, travelPool, travelDomain, h]

end State

end Sys2Proof.Machine
end

