-- ==== Sys2Proof/Laws/Receiving.lean ====
section
/-! SUPPORT. What the close of another party's frame does in a station that heeds it: one lemma for the close, one for the line acceptance before dispatch, and what each leaves unchanged. -/

namespace Sys2Proof.Machine.State

variable (s : State)

/-! ### The close -/

@[simp] theorem closed_ltu : s.closed.ltu = s.ltu := by unfold closed; split <;> rfl
@[simp] theorem closed_sbs : s.closed.sbs = s.sbs := by unfold closed; split <;> rfl
@[simp] theorem closed_mku : s.closed.mku = s.mku := by unfold closed; split <;> rfl
@[simp] theorem closed_asc : s.closed.asc = s.asc := by unfold closed; split <;> rfl
@[simp] theorem closed_dcu : s.closed.dcu = s.dcu := by unfold closed; split <;> rfl
@[simp] theorem closed_tvu : s.closed.tvu = s.tvu := by unfold closed; split <;> rfl
@[simp] theorem closed_llu : s.closed.llu = s.llu := by unfold closed; split <;> rfl
@[simp] theorem closed_fru : s.closed.fru = s.fru := by unfold closed; split <;> rfl
@[simp] theorem closed_srh : s.closed.srh = s.srh := by unfold closed; split <;> rfl
@[simp] theorem closed_cfl : s.closed.cfl = s.cfl := by unfold closed; split <;> rfl
@[simp] theorem closed_pending : s.closed.pending = s.pending := by unfold closed; split <;> rfl
@[simp] theorem closed_state : s.closed.lpi.state = s.lpi.state := by unfold closed; split <;> rfl
@[simp] theorem closed_faultCount : s.closed.lpi.faultCount = s.lpi.faultCount := by unfold closed; split <;> rfl
@[simp] theorem closed_acceptedRun : s.closed.lpi.acceptedRun = s.lpi.acceptedRun := by unfold closed; split <;> rfl
@[simp] theorem closed_quietCycles : s.closed.lpi.quietCycles = s.lpi.quietCycles := by unfold closed; split <;> rfl
@[simp] theorem closed_transmission : s.closed.lpi.transmission = s.lpi.transmission := by
  unfold closed; split <;> rfl
@[simp] theorem closed_decoder : s.closed.lpi.decoder = .outside 0 := by unfold closed; split <;> rfl
@[simp] theorem closed_chosen : s.closed.lpi.chosen = s.lpi.chosen := by unfold closed; split <;> rfl
@[simp] theorem closed_muted : s.closed.muted = s.muted := by unfold muted; rw [closed_state]

/-- Outside MUTED the close moves the decoder and nothing else. -/
theorem closed_lpi (h : s.lpi.state ≠ .muted) : s.closed.lpi = { s.lpi with decoder := .outside 0 } := by
  unfold closed
  split
  · simp [meetFrame, closeFrame, setDecoder, muted, h]
  · simp [meetFrame, closeFrame, setDecoder, muted, h]
  · rfl
  · rfl

/-- A frame of a length ends at the bits from that length on. -/
theorem closesNow_of_frame {i : Instr} {f : WireFrame} (h : i.wireFrame = some f) (bit : Nat) :
    closesNow i bit = decide (f.ticks ≤ bit) := by
  unfold closesNow
  rw [h]

/-- A frame that the station heeds is closed and worked on. -/
theorem receiveFrame_heeds {i : Instr} (h : s.Heeds i) (work : State → State) :
    s.receiveFrame i work = work s.closed := by
  obtain ⟨h1, h2, h3⟩ := h
  unfold receiveFrame closed
  rcases h3 with ⟨b, hb, hc⟩ | ⟨r, hr⟩ | ⟨l, hl⟩ <;> simp_all

/-- A station that heeds a frame sends none of its own. -/
theorem Heeds.transmission {s : State} {i : Instr} (h : s.Heeds i) : s.lpi.transmission = none := by
  have h1 := h.1
  unfold readsNoFrame at h1
  cases hx : s.lpi.transmission <;> simp_all

theorem Heeds.reportOnWire {s : State} {i : Instr} (h : s.Heeds i) : s.reportOnWire = false := by
  unfold State.reportOnWire
  rw [h.transmission]
  rfl

/-- A station that reads no frame is left as it is. -/
theorem receiveFrame_deaf {i : Instr} (h : s.readsNoFrame = true) (work : State → State) :
    s.receiveFrame i work = s := by
  unfold receiveFrame
  rw [if_pos h]

/-- Every way the close of another party's frame can go: the frame is worked on, or the station reads none, or the
decoder alone takes note. -/
theorem receiveFrame_cases (i : Instr) (work : State → State) :
    (s.Heeds i ∧ s.receiveFrame i work = work s.closed) ∨ s.receiveFrame i work = s ∨
      (s.lpi.transmission = none ∧ ∃ d, s.receiveFrame i work = s.setDecoder d) := by
  by_cases h : s.Heeds i
  · exact Or.inl ⟨h, receiveFrame_heeds s h work⟩
  · right
    by_cases hd : s.readsNoFrame = true
    · exact Or.inl (receiveFrame_deaf s hd work)
    · have hr : s.readsNoFrame = false := by simpa using hd
      have ht : s.lpi.transmission = none := by
        have := hr
        unfold readsNoFrame at this
        cases hx : s.lpi.transmission <;> simp_all
      have hs : s.lpi.state = .silent ∨ s.lpi.state ≠ .silent := by
        cases s.lpi.state <;> simp
      unfold receiveFrame
      rw [if_neg hd]
      split
      · exact Or.inr ⟨ht, _, rfl⟩
      · rename_i b heeded hdec
        split
        · rename_i hc
          split
          · rename_i hw
            simp only [Bool.and_eq_true, bne_iff_ne, ne_eq] at hw
            exact absurd ⟨hr, hw.2, Or.inl ⟨b, by rw [hdec, hw.1], hc⟩⟩ h
          · exact Or.inr ⟨ht, _, rfl⟩
        · exact Or.inl rfl
      · rename_i r hdec
        split
        · rename_i hw
          exact absurd ⟨hr, by simpa using hw, Or.inr (Or.inl ⟨r, hdec⟩)⟩ h
        · exact Or.inr ⟨ht, _, rfl⟩
      · rename_i l hdec
        split
        · rename_i hw
          exact absurd ⟨hr, by simpa using hw, Or.inr (Or.inr ⟨l, hdec⟩)⟩ h
        · exact Or.inr ⟨ht, _, rfl⟩

/-! ### The decoder's place -/

@[simp] theorem advanceBy_zero (d : Decoder) : d.advanceBy 0 = d := rfl

/-- The formula for some bit times is that many bit times: each one moves on by one, so long as the line shows no new
start bit. -/
theorem advance_advanceBy (n : Nat) (d : Decoder) (hd : ∀ run dominant, d = .unsynchronised run dominant → run < 140)
    (hg : ∀ run, d = .outside run → run ≤ 3) (hf : ∀ b h, d = .inside b h → b ≤ Config.longestFrame) :
    d.advance.advanceBy n = d.advanceBy (n + 1) := by
  cases d with
  | unsynchronised run dominant =>
    have := hd run dominant rfl
    have h140 : Config.resyncBits = 140 := rfl
    have h3 : Config.gapBits = 3 := rfl
    cases dominant <;> rcases Nat.eq_zero_or_pos n with rfl | hn
    · simp [Decoder.advance, Decoder.advanceBy]
    · have hz : n ≠ 0 := by omega
      by_cases h : 140 ≤ run + 1
      · have h' : 140 ≤ run + (n + 1) := by omega
        simp [Decoder.advance, Decoder.advanceBy, h140, h3, h, h', hz]
      · simp [Decoder.advance, Decoder.advanceBy, h140, h3, h, hz, Nat.add_assoc, Nat.add_comm 1 n]
    · simp [Decoder.advance, Decoder.advanceBy, h140]
    · have hz : n ≠ 0 := by omega
      simp [Decoder.advance, Decoder.advanceBy, hz]
  | outside run =>
    have := hg run rfl
    unfold Decoder.advance Decoder.advanceBy
    cases n <;> simp [Config.gapBits] <;> omega
  | inside b h =>
    have := hf b h rfl
    unfold Decoder.advance Decoder.advanceBy
    cases n <;> simp <;> omega
  | endSlot left =>
    have h3 : Config.gapBits = 3 := rfl
    rcases Nat.eq_zero_or_pos n with rfl | hn
    · by_cases h : left ≤ 1
      · have h' : ¬ 1 < left := by omega
        simp [Decoder.advance, Decoder.advanceBy, h, h']
      · have h' : 1 < left := by omega
        simp [Decoder.advance, Decoder.advanceBy, h, h']
    · have hz : n ≠ 0 := by omega
      by_cases h : left ≤ 1
      · have h' : ¬ n + 1 < left := by omega
        simp [Decoder.advance, Decoder.advanceBy, h, h', hz]
      · by_cases h2 : n + 1 < left
        · have h' : n < left - 1 := by omega
          simp [Decoder.advance, Decoder.advanceBy, h, h', h2, hz]
          omega
        · have h' : ¬ n < left - 1 := by omega
          have hm1 : max 1 (left - 1) = left - 1 := by omega
          have hm2 : max 1 left = left := by omega
          simp [Decoder.advance, Decoder.advanceBy, h, h', h2, hz, hm1, hm2]
          omega

/-! ### The line acceptance -/

@[simp] theorem accepted_ltu : s.accepted.ltu = s.ltu := by simp [accepted]
@[simp] theorem accepted_sbs : s.accepted.sbs = s.sbs := by simp [accepted]
@[simp] theorem accepted_mku : s.accepted.mku = s.mku := by simp [accepted]
@[simp] theorem accepted_asc : s.accepted.asc = s.asc := by simp [accepted]
@[simp] theorem accepted_dcu : s.accepted.dcu = s.dcu := by simp [accepted]
@[simp] theorem accepted_tvu : s.accepted.tvu = s.tvu := by simp [accepted]
@[simp] theorem accepted_llu : s.accepted.llu = s.llu := by simp [accepted]
@[simp] theorem accepted_srh : s.accepted.srh = s.srh := by simp [accepted]
@[simp] theorem accepted_cfl : s.accepted.cfl = s.cfl := by simp [accepted]
@[simp] theorem accepted_pending : s.accepted.pending = s.pending := by simp [accepted]
theorem accepted_fru : s.accepted.fru = (s.count .acceptedFrames).fru := by
  simp [accepted, count, countBy]

@[simp] theorem accepted_running : s.accepted.running = s.running := by simp [running]
@[simp] theorem accepted_locked : s.accepted.locked = s.locked := by simp [locked]
@[simp] theorem accepted_period : s.accepted.period = s.period := by simp [period]
@[simp] theorem accepted_window : s.accepted.window = s.window := by simp [window]
@[simp] theorem accepted_strayLimit : s.accepted.strayLimit = s.strayLimit := by simp [strayLimit]
@[simp] theorem accepted_now : s.accepted.now = s.now := by simp [now]
@[simp] theorem accepted_entry (i : Fin 64) : s.accepted.entry i = s.entry i := by simp [entry]
@[simp] theorem accepted_line (n : LineId) : s.accepted.line n = s.line n := by simp [line]
@[simp] theorem accepted_addressed (target : Byte) : s.accepted.addressed target = s.addressed target := by
  simp [addressed]

/-- The line acceptance of a frame that carries the station's own address. -/
theorem acceptFrame_own (dispatch : State → State) {source : Address} (h : source = s.cfl.address) :
    acceptFrame source dispatch s.closed = s.accepted.setFlag .addressClash := by
  subst h
  simp [acceptFrame, accepted]

/-- The line acceptance of any other frame dispatches it. -/
theorem acceptFrame_other (dispatch : State → State) {source : Address} (h : source ≠ s.cfl.address) :
    acceptFrame source dispatch s.closed = dispatch s.accepted := by
  simp [acceptFrame, accepted, h]

/-- A class that only a RUNNING station dispatches. -/
theorem whenRunning_accepted (work : State → State) :
    whenRunning work s.accepted = if s.running then work s.accepted else s.accepted := by
  simp [whenRunning]

end Sys2Proof.Machine.State
end

