-- ==== Sys2Proof/Laws/Wire.lean ====
section
/-! SUPPORT. The fields of the wire read back from their bytes (R190), and a frame that a sender makes is not malformed (R139). -/

namespace Sys2Proof

@[simp] theorem half16At_bytes16 (x : Half) (rest : List Byte) : half16At (bytes16 x ++ rest) 0 = x := by
  change (x.extractLsb' 8 8 ++ x.extractLsb' 0 8 : BitVec (8 + 8)) = x
  rw [BitVec.extractLsb'_append_extractLsb'_eq_extractLsb' (by rfl)]
  exact BitVec.extractLsb'_eq_self

@[simp] theorem word32At_bytes32 (x : Word) (rest : List Byte) : word32At (bytes32 x ++ rest) 0 = x := by
  change ((x.extractLsb' 24 8 ++ x.extractLsb' 16 8 : BitVec (8 + 8)) ++
    (x.extractLsb' 8 8 ++ x.extractLsb' 0 8 : BitVec (8 + 8)) : BitVec (8 + 8 + (8 + 8))) = x
  rw [BitVec.extractLsb'_append_extractLsb'_eq_extractLsb' (by rfl),
    BitVec.extractLsb'_append_extractLsb'_eq_extractLsb' (by rfl),
    BitVec.extractLsb'_append_extractLsb'_eq_extractLsb' (by rfl)]
  exact BitVec.extractLsb'_eq_self

@[simp] theorem field24At_bytes24 (x : BitVec 24) (rest : List Byte) : field24At (bytes24 x ++ rest) 0 = x := by
  change ((x.extractLsb' 16 8 ++ x.extractLsb' 8 8 : BitVec (8 + 8)) ++ x.extractLsb' 0 8 : BitVec (8 + 8 + 8)) = x
  rw [BitVec.extractLsb'_append_extractLsb'_eq_extractLsb' (by rfl),
    BitVec.extractLsb'_append_extractLsb'_eq_extractLsb' (by rfl)]
  exact BitVec.extractLsb'_eq_self

@[simp] theorem half16At_bytes16_end (x : Half) : half16At (bytes16 x) 0 = x := half16At_bytes16 x []
@[simp] theorem word32At_bytes32_end (x : Word) : word32At (bytes32 x) 0 = x := word32At_bytes32 x []

/-! Fields that lie further on. -/

@[simp] theorem byteAt_zero (b : Byte) (l : List Byte) : byteAt (b :: l) 0 = b := rfl
@[simp] theorem byteAt_succ (b : Byte) (l : List Byte) (i : Nat) : byteAt (b :: l) (i + 1) = byteAt l i := rfl
@[simp] theorem half16At_succ (b : Byte) (l : List Byte) (i : Nat) : half16At (b :: l) (i + 1) = half16At l i := rfl
@[simp] theorem word32At_succ (b : Byte) (l : List Byte) (i : Nat) : word32At (b :: l) (i + 1) = word32At l i := by
  simp [word32At]

/-- A field behind a two-byte field. -/
@[simp] theorem byteAt_bytes16_add (x : Half) (l : List Byte) (i : Nat) : byteAt (bytes16 x ++ l) (i + 2) = byteAt l i := rfl
@[simp] theorem half16At_bytes16_add (x : Half) (l : List Byte) (i : Nat) :
    half16At (bytes16 x ++ l) (i + 2) = half16At l i := rfl
@[simp] theorem word32At_bytes16_add (x : Half) (l : List Byte) (i : Nat) :
    word32At (bytes16 x ++ l) (i + 2) = word32At l i := by
  rw [show bytes16 x ++ l = x.extractLsb' 8 8 :: x.extractLsb' 0 8 :: l from rfl, word32At_succ, word32At_succ]

/-- A field behind a four-byte field. -/
@[simp] theorem byteAt_bytes32_add (x : Word) (l : List Byte) (i : Nat) : byteAt (bytes32 x ++ l) (i + 4) = byteAt l i := rfl
@[simp] theorem half16At_bytes32_add (x : Word) (l : List Byte) (i : Nat) :
    half16At (bytes32 x ++ l) (i + 4) = half16At l i := rfl

/-! The bits of a frame, field by field. -/

@[simp] theorem length_bitsOf {w : Nat} (x : BitVec w) : (bitsOf x).length = w := by simp [bitsOf]

theorem bitsOf_getD {w : Nat} (x : BitVec w) (i : Nat) (b : Bool) (h : i < w) : (bitsOf x).getD i b = x.getMsbD i := by
  rw [List.getD_eq_getElem _ _ (by simpa using h)]
  simp [bitsOf]

@[simp] theorem length_bytesBits (l : List Byte) : (bytesBits l).length = 8 * l.length := by
  induction l with
  | nil => rfl
  | cons x l ih =>
    have : bytesBits (x :: l) = bitsOf x ++ bytesBits l := rfl
    rw [this, List.length_append, ih, length_bitsOf, List.length_cons]
    omega

theorem bytesBits_getD (l : List Byte) (j i : Nat) (b : Bool) (hj : j < l.length) (hi : i < 8) :
    (bytesBits l).getD (8 * j + i) b = (byteAt l j).getMsbD i := by
  induction l generalizing j with
  | nil => simp at hj
  | cons x l ih =>
    have e : bytesBits (x :: l) = bitsOf x ++ bytesBits l := rfl
    rw [e]
    cases j with
    | zero =>
      rw [List.getD_append _ _ _ _ (by simp; omega), show 8 * 0 + i = i by omega, bitsOf_getD x i b hi]
      rfl
    | succ j =>
      rw [List.getD_append_right _ _ _ _ (by simp; omega), length_bitsOf,
        show 8 * (j + 1) + i - 8 = 8 * j + i by omega, ih j (by simpa using hj)]
      rfl

section
variable (cls : BitVec 3) (source : Address) (payload : List Byte)

@[simp] theorem frameOf_cls : (frameOf cls source payload).cls = cls := rfl
@[simp] theorem frameOf_source : (frameOf cls source payload).source = source := rfl
@[simp] theorem frameOf_payload : (frameOf cls source payload).payload = payload := rfl
@[simp] theorem frameOf_length : (frameOf cls source payload).length = BitVec.ofNat 4 payload.length := rfl

/-- The check that a sender computes is the one a receiver computes. -/
theorem frameOf_check : (frameOf cls source payload).computedCheck = (frameOf cls source payload).check := by
  simp only [frameOf, WireFrame.computedCheck, WireFrame.coveredBits]

/-- A frame made with the length of its class is not malformed. -/
theorem frameOf_malformed (n : Nat) (hc : classBytes cls = some n) (hl : payload.length = n) (hn : n < 16) :
    (frameOf cls source payload).malformed = false := by
  unfold WireFrame.malformed WireFrame.lengthFits
  rw [frameOf_check, frameOf_cls, frameOf_length, hc]
  simp [hl, Nat.mod_eq_of_lt hn]

/-- A frame of an unassigned class with a payload of at most twelve bytes is not malformed. -/
theorem frameOf_malformed_unassigned (hc : classBytes cls = none) (hl : payload.length ≤ 12) :
    (frameOf cls source payload).malformed = false := by
  unfold WireFrame.malformed WireFrame.lengthFits
  rw [frameOf_check, frameOf_cls, frameOf_length, hc]
  have : payload.length % 16 = payload.length := Nat.mod_eq_of_lt (by omega)
  simp [this, hl]

end

end Sys2Proof
end

