-- ==== Sys2Proof/Laws/Reports.lean ====
section
/-! SUPPORT. The payload of a report (R168 to R170, R192): its length, and the frame it goes in. -/

namespace Sys2Proof.Machine

/-- Bit `i` of the word made from a run of bits. -/
theorem testBit_wordOfBits (l : List Bool) (i : Nat) : (wordOfBits l).testBit i = l.getD i false := by
  induction l generalizing i with
  | nil => simp [wordOfBits]
  | cons b l ih =>
    cases i with
    | zero =>
      cases b <;> simp [wordOfBits, Nat.testBit_zero, Nat.add_mod]
    | succ i =>
      have h : (wordOfBits (b :: l)) / 2 = wordOfBits l := by
        cases b <;> (simp only [wordOfBits, Bool.toNat_false, Bool.toNat_true]; omega)
      rw [Nat.testBit_succ, h, ih]
      simp

/-- R192: bit n of a byte of line bits. -/
theorem getLsbD_lineBits (f : LineId → Bool) (n : LineId) : (lineBits f).getLsbD n.val = f n := by
  unfold lineBits byteOf
  rw [BitVec.getLsbD_ofNat, testBit_wordOfBits]
  fin_cases n <;> rfl

/-- R192: the bit of an event flag. -/
theorem getLsbD_toHalf (e : EventFlags) (i : Nat) (h : i < 16) :
    e.toHalf.getLsbD i = (EventFlag.ordered.map e.has).getD i false := by
  unfold EventFlags.toHalf
  rw [BitVec.getLsbD_ofNat, testBit_wordOfBits]
  simp [h]

end Sys2Proof.Machine

namespace Sys2Proof.Machine.State

variable (s : State) (p : Fin 8)

/-- Every page has ten bytes. -/
@[simp] theorem pageBytes_length : (s.pageBytes p).length = 10 := by
  have h : (s.headDueBytes).length = 4 := by unfold headDueBytes; split <;> rfl
  fin_cases p <;> simp [pageBytes, page0, page1, counterPage, page4, page5, page6, page7, bytes32, bytes16,
    countBytes, allLines, h]

/-- R168: a report has twelve bytes. -/
@[simp] theorem reportPayload_length : (s.reportPayload p).length = 12 := by simp [reportPayload]

/-- A report's frame is not malformed. -/
theorem reportFrame_malformed (source : Address) : (frameOf 5#3 source (s.reportPayload p)).malformed = false :=
  frameOf_malformed _ _ _ 12 rfl (s.reportPayload_length p) (by omega)

end Sys2Proof.Machine.State
end

