-- ==== Sys2Proof/Laws/Slots.lean ====
section
/-! SUPPORT. How each operation of the schedules moves slots between the free stack and the schedules (R62): never one lost, never one doubled. -/

namespace Sys2Proof.Machine

/-! ### Slots -/

section
variable {δ : Type}

/-- The slots of a free stack and of the schedules, counted by a permutation: a due turn only moves the head's slot. -/
theorem fireHead_slots (r : DomainRules δ) (templates : Table Template 16) (a : Action δ) (rest : List (Action δ))
    (p : Pool δ) (h : p.schedule = a :: rest) :
    ((fireHead r templates a rest p).free ++ (fireHead r templates a rest p).schedule.map Action.slot).Perm
      (p.free ++ p.schedule.map Action.slot) := by
  unfold fireHead
  rw [h]
  dsimp only
  split
  · simpa using List.perm_middle.symm
  · exact List.Perm.append_left _ ((fileAction_perm r _ rest).map Action.slot)

theorem pass_slots (r : DomainRules δ) (templates : Table Template 16) (p : Pool δ) :
    ((p.pass r templates).free ++ (p.pass r templates).schedule.map Action.slot).Perm
      (p.free ++ p.schedule.map Action.slot) :=
  Pool.pass_keeps r templates
    (P := fun q => (q.free ++ q.schedule.map Action.slot).Perm (p.free ++ p.schedule.map Action.slot))
    (fun q a rest ih e _ => (fireHead_slots r templates a rest q e).trans ih) p (List.Perm.refl _)

theorem cancelList_slots (w : Action δ → Bool) (l : List (Action δ)) (f : List (Fin 48)) (d : Dcu) :
    ((cancelList w l f d).free ++ (cancelList w l f d).schedule.map Action.slot).Perm
      (f ++ l.map Action.slot) := by
  induction l generalizing f d with
  | nil => exact List.Perm.refl _
  | cons a rest ih =>
    unfold cancelList
    split
    · exact (ih _ _).trans (by simpa using List.perm_middle.symm)
    · simp only [List.map_cons]
      exact (List.perm_middle.trans ((ih f d).cons _)).trans List.perm_middle.symm
end

/-! ### The operations of the station -/

namespace State

theorem slots_of_asc {s t : State} (e : t.asc = s.asc) (h : s.SlotsPartitioned) : t.SlotsPartitioned := by
  unfold SlotsPartitioned
  rw [e]
  exact h

theorem timePass_slots (s : State) (h : s.SlotsPartitioned) : s.timePass.SlotsPartitioned := by
  unfold SlotsPartitioned at *
  have := (pass_slots s.timeDomain s.sbs.templates s.timePool).append_right (s.asc.travel.map Action.slot)
  simp only [List.append_assoc] at this
  exact this.trans h

theorem perm_travel (f : List (Fin 48)) (a b : List (Fin 48)) : (f ++ (a ++ b)).Perm (f ++ b ++ a) := by
  rw [List.append_assoc]
  exact List.Perm.append_left _ List.perm_append_comm

theorem travelPass_slots (s : State) (h : s.SlotsPartitioned) : s.travelPass.SlotsPartitioned := by
  unfold SlotsPartitioned at *
  have := (pass_slots s.travelDomain s.sbs.templates s.travelPool).append_right (s.asc.time.map Action.slot)
  exact ((perm_travel _ _ _).trans this).trans ((perm_travel _ _ _).symm.trans h)

theorem cancelWhere_slots (s : State) (w : HeldSet → Bool) (h : s.SlotsPartitioned) :
    (s.cancelWhere w).SlotsPartitioned := by
  unfold SlotsPartitioned at *
  have h1 := (cancelList_slots (fun a => w a.held) s.asc.time s.asc.free s.dcu).append_right
    (s.asc.travel.map Action.slot)
  simp only [List.append_assoc] at h1
  set s1 := s.putTimePool (cancelList (fun a => w a.held) s.asc.time s.asc.free s.dcu) with e1
  have h2 := (cancelList_slots (fun a => w a.held) s1.asc.travel s1.asc.free s1.dcu).append_right
    (s1.asc.time.map Action.slot)
  exact (((perm_travel _ _ _).trans h2).trans (perm_travel _ _ _).symm).trans (h1.trans h)

theorem admitTime_slots (s : State) (due : Instant) (k : Fin 16) (h : s.SlotsPartitioned) :
    (s.admitTime due k).SlotsPartitioned := by
  unfold admitTime
  split
  · exact slots_of_asc rfl h
  · split
    · exact slots_of_asc rfl h
    · rename_i slot free e
      have : State.SlotsPartitioned { s with asc := { s.asc with
          free := free, time := fileAction s.timeDomain (newAction slot due k) s.asc.time } } := by
        unfold SlotsPartitioned at *
        rw [e] at h
        refine List.Perm.trans ?_ h
        simp only [List.cons_append]
        have := ((fileAction_perm s.timeDomain (newAction slot due k) s.asc.time).map Action.slot).append_right
          (s.asc.travel.map Action.slot)
        refine (List.Perm.append_left free this).trans ?_
        exact List.perm_middle
      dsimp only
      split
      · exact timePass_slots _ (slots_of_asc rfl this)
      · exact this

theorem admitTravel_slots (s : State) (due : Word) (k : Fin 16) (h : s.SlotsPartitioned) :
    (s.admitTravel due k).SlotsPartitioned := by
  unfold admitTravel
  split
  · exact slots_of_asc rfl h
  · split
    · exact slots_of_asc rfl h
    · rename_i slot free e
      have : State.SlotsPartitioned { s with asc := { s.asc with
          free := free, travel := fileAction s.travelDomain (newAction slot due k) s.asc.travel } } := by
        unfold SlotsPartitioned at *
        rw [e] at h
        refine List.Perm.trans ?_ h
        simp only [List.cons_append]
        have := ((fileAction_perm s.travelDomain (newAction slot due k) s.asc.travel).map Action.slot).append_left
          (s.asc.time.map Action.slot)
        refine (List.Perm.append_left free this).trans ?_
        rw [List.map_cons]
        refine (List.Perm.append_left free List.perm_middle).trans ?_
        exact List.perm_middle
      dsimp only
      split
      · exact travelPass_slots _ (slots_of_asc rfl this)
      · exact this

theorem tailTest_slots (s : State) (h : s.SlotsPartitioned) : s.tailTest.SlotsPartitioned := by
  unfold tailTest
  split
  · exact h
  · rename_i a e
    split
    · unfold SlotsPartitioned at *
      refine List.Perm.trans ?_ h
      refine List.Perm.append_left _ (List.Perm.append_left _ ?_)
      have hl : s.asc.travel = s.asc.travel.dropLast ++ [a] := by
        have := List.dropLast_append_getLast? a e
        exact this.symm
      have : (a :: s.asc.travel.dropLast).Perm s.asc.travel := by
        conv_rhs => rw [hl]
        exact (List.perm_append_singleton _ _).symm
      exact this.map _
    · exact h

theorem countChange_slots (s : State) (d : CountChange) (h : s.SlotsPartitioned) :
    (s.countChange d).SlotsPartitioned := by
  cases d
  · exact travelPass_slots _ (slots_of_asc rfl h)
  · exact travelPass_slots _ (tailTest_slots _ (slots_of_asc rfl h))

theorem zeroRebase_slots (s : State) (h : s.SlotsPartitioned) : s.zeroRebase.SlotsPartitioned := by
  unfold SlotsPartitioned at *
  simpa [zeroRebase, rebaseTravelSchedule, rebaseRecords, mapLines, Function.comp_def] using h

theorem shiftTimeSchedule_slots (s : State) (k : Nat) (h : s.SlotsPartitioned) :
    (s.shiftTimeSchedule k).SlotsPartitioned := by
  unfold SlotsPartitioned at *
  simpa [shiftTimeSchedule, Function.comp_def] using h

theorem requestFor_slots (s : State) (i : Fin 64) (c : Instant) (p : Option Word) (h : s.SlotsPartitioned) :
    (s.requestFor i c p).SlotsPartitioned := by
  unfold requestFor
  dsimp only
  split
  · exact admitTime_slots _ _ _ h
  · split
    · exact slots_of_asc rfl h
    · exact admitTravel_slots _ _ _ h

theorem processMark_slots (s : State) (a : Address) (ch : Fin 8) (q : Byte) (c : Instant) (p : State → Option Word)
    (h : s.SlotsPartitioned) : (s.processMark a ch q c p).SlotsPartitioned := by
  unfold processMark
  split
  · exact h
  · split
    · exact slots_of_asc rfl h
    · rename_i i _ _ s1 e
      have h1 : s1.SlotsPartitioned := slots_of_asc (sequenceTest_asc _ _ _ _ e) h
      split
      · exact requestFor_slots _ _ _ _ h1
      · exact h1

end State
end Sys2Proof.Machine
end

