-- ==== Sys2Proof/Laws/Tick.lean ====
section
/-! SUPPORT. What a part that is taken line by line keeps, and what the parts of a tick leave unchanged. -/

namespace Sys2Proof.Machine.State

/-- What every line's part keeps, the whole part keeps. -/
theorem foldl_keeps {P : State → Prop} {f : State → LineId → State} (h : ∀ s n, P s → P (f s n)) (l : List LineId)
    (s : State) (hs : P s) : P (l.foldl f s) := by
  induction l generalizing s with
  | nil => exact hs
  | cons a l ih => exact ih _ (h _ _ hs)

/-- A block that no line's part touches, the whole part does not touch. -/
theorem foldl_block {β : Type} (g : State → β) {f : State → LineId → State} (h : ∀ s n, g (f s n) = g s)
    (l : List LineId) (s : State) : g (l.foldl f s) = g s :=
  foldl_keeps (P := fun t => g t = g s) (fun t n e => (h t n).trans e) l s rfl

variable (s : State)

@[simp] theorem runningParts_cfl : s.runningParts.cfl = s.cfl := by
  unfold runningParts
  dsimp only
  rw [foldl_block State.cfl (by simp), mapLines_cfl, foldl_block State.cfl (by simp), mapLines_cfl,
    foldl_block State.cfl (by simp)]
  simp

@[simp] theorem runningParts_srh : s.runningParts.srh = s.srh := by
  unfold runningParts
  dsimp only
  rw [foldl_block State.srh (by simp), mapLines_srh, foldl_block State.srh (by simp), mapLines_srh,
    foldl_block State.srh (by simp)]
  simp

@[simp] theorem runningParts_pending : s.runningParts.pending = s.pending := by
  unfold runningParts
  dsimp only
  rw [foldl_block State.pending (by simp), mapLines_pending, foldl_block State.pending (by simp), mapLines_pending,
    foldl_block State.pending (by simp)]
  simp

/-- The LPI's part of a tick changes at most the slot of the LTU. -/
theorem lpiTick_ltu : ∃ slot, s.lpiTick.ltu = { s.ltu with slot := slot } := by
  unfold lpiTick
  split
  · split
    · unfold acceptOwnFrame clearCandidate
      dsimp only
      split
      · exact ⟨.empty, rfl⟩
      · exact ⟨s.ltu.slot, rfl⟩
      · exact ⟨s.ltu.slot, by simp [endAttempt, closeFrame, setDecoder]⟩
    · exact ⟨s.ltu.slot, rfl⟩
  · split
    · unfold chooseCandidate beginAttempt
      split
      · exact ⟨s.ltu.slot, rfl⟩
      · exact ⟨.sending, rfl⟩
      · split <;> exact ⟨s.ltu.slot, rfl⟩
      · split <;> exact ⟨s.ltu.slot, rfl⟩
    · exact ⟨s.ltu.slot, rfl⟩

/-- The LPI's part is all that a tick does to the LPI but for the next bit time. -/
theorem runningParts_lpi : s.runningParts.lpi = s.lpiTick.lpi := by
  unfold runningParts
  dsimp only
  rw [foldl_block State.lpi (by simp), mapLines_lpi, foldl_block State.lpi (by simp), mapLines_lpi,
    foldl_block State.lpi (by simp)]

/-- Of the parts of a tick behind the LTU's, the LPI's alone touches the LTU. -/
theorem runningParts_ltu_eq : s.runningParts.ltu = s.lpiTick.ltu := by
  unfold runningParts
  dsimp only
  rw [foldl_block State.ltu (by simp), mapLines_ltu, foldl_block State.ltu (by simp), mapLines_ltu,
    foldl_block State.ltu (by simp)]

/-- The parts of a tick behind the LTU's change at most the slot of the LTU. -/
theorem runningParts_ltu : ∃ slot, s.runningParts.ltu = { s.ltu with slot := slot } := by
  rw [runningParts_ltu_eq]
  exact lpiTick_ltu s

/-- The opening of the next tick keeps the line instant and the hold. -/
theorem opening_ltu : (s.refreshLines.clearMarks.advanceBit).ltu = { s.ltu with ticked := false } := by
  unfold advanceBit clearMarks refreshLines
  rfl

/-! ### The parts as the commands that name them -/

/-- The LPI's part of a tick is a choice, or the end of the own frame, or nothing. -/
theorem lpiTick_part : s.LpiPart s.lpiTick := by
  refine ⟨fun x hx => ⟨fun h => ?_, fun h => ?_⟩, fun hx => ?_⟩
  · simp only [lpiTick, hx, if_neg (by omega : ¬ x.frame.ticks ≤ x.bit)]
  · simp only [exec, execOwnFrameAccepted, lpiTick, hx, h, if_true]
  · simp only [exec, execTransmitStart, lpiTick, hx]

/-- A line's tick of its countdown is ON_TIME_EXPIRY where it runs out. -/
theorem countdownTick_part (hr : s.running = true) (n : LineId) : s.CountdownPart n (s.countdownTick n) := by
  refine ⟨fun h => ?_, fun hc => ⟨fun h => ?_, fun r hr1 h => ?_⟩⟩
  · unfold countdownTick
    rcases h with h | h <;> simp [h]
  · simp [exec, execOnTimeExpiry, countdownTick, hr, hc, h]
  · simp [countdownTick, hc, h, if_neg (by omega : ¬ r ≤ 1)]

/-- A line's sample is EDGE_ACCEPT where its record runs out. -/
theorem sampleTick_part (hr : s.running = true) (n : LineId) : s.SamplePart n (s.sampleTick n) := by
  refine ⟨fun h => ?_, fun r hc h => ⟨fun h1 => ?_, fun h1 => ?_⟩⟩
  · unfold sampleTick sampleLine
    rcases h with h | h <;> simp [h]
  · simp [exec, execEdgeAccept, sampleTick, sampleLine, hr, hc, h, h1]
  · simp [sampleTick, sampleLine, hc, h, if_neg (by omega : ¬ r.remaining ≤ 1)]

/-- A part that is taken line by line, each as the part says so long as `P` holds. -/
theorem foldl_lineByLine {P : State → Prop} {part : LineId → State → State → Prop} {f : State → LineId → State}
    (hk : ∀ t n, P t → P (f t n)) (h : ∀ t n, P t → part n t (f t n)) (hs : P s) :
    s.LineByLine part (allLines.foldl f s) := by
  refine ⟨fun k => (allLines.take k).foldl f s, rfl, rfl, fun n => ?_⟩
  have e : allLines.take (n.val + 1) = allLines.take n.val ++ [n] := by revert n; decide
  dsimp only
  rw [e, List.foldl_append]
  exact h _ n (foldl_keeps hk _ s hs)

/-- The countdowns of a tick are line by line the part of each. -/
theorem countdownTicks_lineByLine (hr : s.running = true) :
    s.LineByLine CountdownPart (allLines.foldl countdownTick s) :=
  foldl_lineByLine s (P := fun t => t.running = true) (fun t n h => by unfold running at *; simpa using h)
    (fun t n h => countdownTick_part t h n) hr

/-- The samples of a tick are line by line the part of each. -/
theorem sampleTicks_lineByLine (hr : s.running = true) : s.LineByLine SamplePart (allLines.foldl sampleTick s) :=
  foldl_lineByLine s (P := fun t => t.running = true) (fun t n h => by unfold running at *; simpa using h)
    (fun t n h => sampleTick_part t h n) hr

/-! What the opening of the next tick keeps. -/

@[simp] theorem opening_sbs : (s.refreshLines.clearMarks.advanceBit).sbs = s.sbs := rfl
@[simp] theorem opening_mku : (s.refreshLines.clearMarks.advanceBit).mku = s.mku := rfl
@[simp] theorem opening_asc : (s.refreshLines.clearMarks.advanceBit).asc = s.asc := rfl
@[simp] theorem opening_tvu : (s.refreshLines.clearMarks.advanceBit).tvu = s.tvu := rfl
@[simp] theorem opening_fru : (s.refreshLines.clearMarks.advanceBit).fru = s.fru := rfl
@[simp] theorem opening_srh : (s.refreshLines.clearMarks.advanceBit).srh = s.srh := rfl
@[simp] theorem opening_cfl : (s.refreshLines.clearMarks.advanceBit).cfl = s.cfl := rfl
@[simp] theorem opening_pending : (s.refreshLines.clearMarks.advanceBit).pending = s.pending := rfl

/-- The opening of the next tick is the next bit time of the LPI. -/
theorem opening_lpi : (s.refreshLines.clearMarks.advanceBit).lpi = s.advanceBit.lpi := rfl

/-- The opening of the next tick presents on every line what the refresh gives. -/
theorem opening_line (n : LineId) : (s.refreshLines.clearMarks.advanceBit).line n =
    { (s.line n).refresh (s.drive n).demand with
      sampled := false, deadCounted := false, pulseCounted := false, compared := false } := by
  simp [advanceBit, clearMarks, refreshLines, line]

/-- The opening of the next tick clears the mark of every countdown. -/
theorem opening_drive (n : LineId) :
    (s.refreshLines.clearMarks.advanceBit).drive n = { s.drive n with counted := false } := by
  simp [advanceBit, clearMarks, refreshLines, drive]

@[simp] theorem opening_claim (n : LineId) :
    ((s.refreshLines.clearMarks.advanceBit).drive n).claim = (s.drive n).claim := by
  simp [advanceBit, clearMarks, refreshLines, drive]

end Sys2Proof.Machine.State
end

