-- ==== Sys2Proof/Tests/Slice0.lean ====
section
/-! SUPPORT. The model's own tests: ill-formed commands refused, the manual's worked numbers, each command on a small state, and for every obligation with hypotheses a state that meets them. -/

namespace Sys2Proof.Tests

set_option Elab.async false

open Sys2Proof Sys2Proof.Machine

/-! ### Helpers -/

/-- The state after a command. -/
def after (c : Instr) (s : State) : State :=
  match exec c s with
  | .next t => t
  | .fault _ => s
  | .refused _ => s

/-- The state after some commands. -/
def afterAll : List Instr → State → State
  | [], s => s
  | c :: rest, s => afterAll rest (after c s)

/-- Some settings of the lines: SENSE, DRIVE, CYCLE_OUT, ZERO, DRIVE and two ENC lines. -/
def settingsOf (n : LineId) : LineSettings :=
  match n with
  | 0 => { LineSettings.reset with
      function := .sense, edges := .both, filterWidth := 2, deadTime := 3, channel := 0, publish := true,
      localRoute := true }
  | 1 => { LineSettings.reset with function := .drive }
  | 2 => { LineSettings.reset with function := .cycleOut, pulseWidth := 10 }
  | 3 => { LineSettings.reset with function := .zero }
  | 4 => { LineSettings.reset with function := .drive }
  | 5 => LineSettings.reset
  | 6 => { LineSettings.reset with function := .enc }
  | 7 => { LineSettings.reset with function := .enc }

/-- ASSERT of a line, a gap, RELEASE of it. -/
def pulseTemplate (n : LineId) (gap : Half) : Template :=
  { count := 2
    steps := Table.ofFn fun k => match k with
      | 0 => { op := .assert, line := n, gap := gap }
      | 1 => { op := .release, line := n, gap := 0#16 }
      | _ => { op := .noOp, line := 0, gap := 0#16 } }

/-- A station in RUNNING, LOCKED at (5, 400), P = 1,000 and W = 200, with entry 0 (bank 0, channel 0) a TIME entry and
entry 9 (bank 1, channel 1) a TRAVEL entry; bank 0 is the station's own and station 7's, bank 1 station 5's. -/
def live : State :=
  { State.reset with
    ltu := { Ltu.reset with
      sync := .locked, instant := { cycle := 5#32, phase := 400 }
      params := some { period := 1000, window := 200, joinWait := 2, strayLimit := 2 } }
    cfl := { Cfl.reset with run := .running, read := .ended, address := 3#5 }
    lpi := { Lpi.reset with state := .active, decoder := .outside 3 }
    srh := { lineTag := some 0x1234#16 }
    asc := { Asc.reset with limits := some { time := 100, travel := 50 } }
    tvu := { mode := .quad, position := 100#32, history := [{ cycle := 5#32, position := 60#32 }] }
    llu := { lines := Table.ofFn fun n => { LocalLine.reset with settings := settingsOf n } }
    sbs := { sourceMap := ((Sbs.reset.sourceMap.set 3 (some 0)).set 5 (some 1)).set 7 (some 0)
             entries := (Sbs.reset.entries.set 0 { Entry.reset with valid := true, delay := 500#24 }).set 9
               { Entry.reset with valid := true, domain := .travel, delay := 7#24, template := 1 }
             templates := (Sbs.reset.templates.set 0 (pulseTemplate 1 100#16)).set 1 (pulseTemplate 4 0#16) } }

/-- The station at another line instant. -/
def at_ (s : State) (cycle : Word) (phase : Nat) : State := { s with ltu := { s.ltu with instant := ⟨cycle, phase⟩ } }

/-- The station with line `n` changed. -/
def onLine (s : State) (n : LineId) (f : LocalLine → LocalLine) : State := s.mapLine n f

/-- The station sending a frame of a candidate, at a bit of it. -/
def sendingAt (s : State) (c : Candidate) (bit : Nat) : State :=
  { s with lpi := { s.lpi with
    transmission := some { candidate := c, frame := s.beaconFrame, bit := bit }
    decoder := .inside bit true } }

/-- The station within another party's frame, at a bit of it. -/
def within (s : State) (bit : Nat) : State := { s with lpi := { s.lpi with decoder := .inside bit true } }

/-- A memory that answers at once with some bytes. -/
def memoryOf (bytes : List Byte) : SerialMemory := { pulses := 0, refuses := none, bytes := bytes }

/-- A start at address 3 whose read meets a memory. -/
def startWith (m : SerialMemory) : StartReads := { straps := 3#5, memory := m }

/-- A frame of class 6 without a payload. -/
def unassigned : ReportContent := { cls := 6#3, payload := [] }

/-- A frame of class 4 whose check does not fit. -/
def badFrame : WireFrame := { cls := 4#3, source := 5#5, length := 2#4, payload := [0#8, 0#8], check := 0#16 }

/-- The station in the end slot of its own rejected frame. -/
def inEndSlot (s : State) : State := { s with lpi := { s.lpi with decoder := .endSlot 1 } }

/-- The station in LISTEN, one tick before a wrap. -/
def listening : State :=
  { live with
    ltu := { live.ltu with sync := .listen, instant := { cycle := 0#32, phase := 999 } }
    tvu := { live.tvu with history := [] } }

/-- The station MUTED, before the last tick of a cycle. -/
def mutedStation : State :=
  { (at_ live 5#32 999) with lpi := { live.lpi with state := .muted, faultCount := 8, quietCycles := 3 } }

/-- The station with a record on line `n`. -/
def sighted (s : State) (n : LineId) (r : FilterRecord) : State := onLine s n fun l => { l with record := some r }

/-! ### Ill-formed commands -/

theorem test_wellFormed_memory_too_long :
    (Instr.resetRelease (startWith (memoryOf (List.replicate 761 0#8)))).wellFormed = false ∧
      (Instr.restart 1#5 3#8 0#16 (startWith (memoryOf (List.replicate 761 0#8)))).wellFormed = false ∧
      (Instr.imageChecks (List.replicate 761 0#8) 0#8).wellFormed = false := by decide +kernel

theorem test_wellFormed_memory_full :
    (Instr.resetRelease (startWith (memoryOf (List.replicate 760 0#8)))).wellFormed = true := by decide +kernel

/-- A payload that the length does not locate, and a length of 13 to 15, which is read as 12. -/
theorem test_wellFormed_frame_payload :
    (Instr.frameRejected { badFrame with payload := [1#8] }).wellFormed = false ∧
      (Instr.frameRejected badFrame).wellFormed = true ∧
      (Instr.frameRejected { badFrame with length := 15#4, payload := List.replicate 12 0#8 }).wellFormed = true := by
  decide

theorem test_wellFormed_known_operation : (Instr.unknownOperation 1#5 3#8 0#16 2#8).wellFormed = false := by decide

theorem test_wellFormed_report :
    (Instr.report 1#5 ⟨4#3, []⟩).wellFormed = false ∧ (Instr.report 1#5 ⟨5#3, []⟩).wellFormed = false ∧
      (Instr.report 1#5 ⟨6#3, List.replicate 13 0#8⟩).wellFormed = false ∧
      (Instr.report 1#5 ⟨5#3, List.replicate 12 0#8⟩).wellFormed = true ∧
      (Instr.report 1#5 unassigned).wellFormed = true := by decide

/-! ### The manual's worked numbers -/

/-- R113: the four interpolations of the manual, and the one of chapter 12. -/
theorem test_interpolation :
    interpolate 61200#32 61338#32 1050 1150 = 61326#32 ∧ interpolate 61200#32 62410#32 1050 10000 = 61327#32 := by
  decide

/-- R55: the gap of a mark behind its predecessor, and of the next one. -/
theorem test_sequence_gap : sequenceGap 11#8 10#8 = 254 ∧ sequenceGap 40#8 41#8 = 0 := by decide

/-- R56: a difference of 32,768 is read as -32,768. -/
theorem test_rebuilt_cycle :
    rebuildCycle 501#32 500#16 = 500#32 ∧ rebuildCycle 0x18000#32 0#16 = 0x10000#32 ∧
      rebuildCycle 0#32 0x8000#16 = 0xFFFF8000#32 := by decide

/-- Chapter 12.5: the distance of the merge, and an instant that it moves. -/
theorem test_merge_distance :
    Instant.distance 10000 ⟨903#32, 4000⟩ ⟨905#32, 7504⟩ = 23504 ∧
      Instant.add 10000 ⟨904#32, 2000⟩ 23504 = ⟨906#32, 5504⟩ := by decide

/-- R68: the order is kept across the wrap of the cycle number. -/
theorem test_order_across_wrap :
    Instant.atOrBefore 10000 ⟨0xFFFFFFFF#32, 9000⟩ ⟨0#32, 500⟩ = true ∧
      Instant.atOrBefore 10000 ⟨0#32, 500⟩ ⟨0xFFFFFFFF#32, 9000⟩ = false := by decide

/-- R182, R183: the ticks of a read that is answered at once, behind nine recovery pulses, and in the two ways in which
none is. -/
theorem test_link_ticks :
    (memoryOf []).readTicks = 68790 ∧ ({ memoryOf [] with pulses := 9 } : SerialMemory).readTicks = 68880 ∧
      ({ memoryOf [] with pulses := 10 } : SerialMemory).readTicks = 100 ∧
      ({ memoryOf [] with refuses := some .deviceWrite } : SerialMemory).readTicks = 110 ∧
      ({ memoryOf [] with refuses := some .deviceRead } : SerialMemory).readTicks = 390 := by decide +kernel

/-- A memory that refuses at an acknowledgement. -/
def refusing (a : MemoryAck) : SerialMemory := { memoryOf [] with pulses := 9, refuses := some a }

/-- R182, R183: the stop condition behind each of the five signs that the memory does not answer, one bit time long. -/
theorem test_unanswered_reads :
    ({ memoryOf [] with pulses := 10 } : SerialMemory).script = List.replicate 9 .recoveryPulse ++ [.stopCondition] ∧
      (refusing .deviceWrite).script.drop 9 = [.startCondition, .deviceAddress .write, .stopCondition] ∧
      (refusing .offsetHigh).script.length = 13 ∧ (refusing .offsetLow).script.length = 14 ∧
      (refusing .deviceRead).script.drop 13 = [.repeatedStart, .deviceAddress .read, .stopCondition] ∧
      linkStepAt (refusing .offsetHigh).script 27 = some .offsetHigh ∧
      linkStepAt (refusing .offsetHigh).script 28 = some .stopCondition ∧
      linkStepAt (refusing .offsetHigh).script 29 = none := by decide +kernel

/-- R182: what the station sends, and the bytes that have come in, at the first bits of a read. -/
theorem test_link_steps :
    linkStepAt (memoryOf []).script 0 = some .startCondition ∧
      (linkStepAt (memoryOf []).script 1).bind LinkStep.sent = some (.address 0x50#7 .write) ∧
      (linkStepAt (memoryOf []).script 10).bind LinkStep.sent = some (.byte 0#8) ∧
      linkStepAt (memoryOf []).script 28 = some .repeatedStart ∧
      linkStepAt (memoryOf []).script 38 = some (.dataByte 0) ∧
      (LinkStep.dataByte 758).sendsAck = some false ∧ (LinkStep.dataByte 759).sendsAck = some true ∧
      linkStepAt (memoryOf []).script 6878 = some .stopCondition ∧
      receivedBytes (memoryOf [7#8, 8#8]) 469 = [] ∧ receivedBytes (memoryOf [7#8, 8#8]) 470 = [7#8] ∧
      receivedBytes (memoryOf [7#8, 8#8]) 560 = [7#8, 8#8] ∧
      receivedBytes (memoryOf [7#8, 8#8]) 740 = [7#8, 8#8, 0xFF#8, 0xFF#8] := by decide +kernel

/-- Chapter 6.6: the travel positions at captures of a station at (302, 4000), 53,160 counts. -/
def travelled : State :=
  { live with
    ltu := { live.ltu with
      instant := ⟨302#32, 4000⟩
      params := some { period := 10000, window := 200, joinWait := 2, strayLimit := 2 } }
    tvu := { mode := .quad, position := 53160#32,
             history := [⟨299#32, 48800#32⟩, ⟨300#32, 50000#32⟩, ⟨301#32, 51200#32⟩, ⟨302#32, 52600#32⟩] } }

theorem test_positions :
    travelled.positionAt ⟨303#32, 100⟩ = some 53160#32 ∧ travelled.positionAt ⟨302#32, 6000⟩ = some 53160#32 ∧
      travelled.positionAt ⟨302#32, 1000⟩ = some 52740#32 ∧ travelled.positionAt ⟨301#32, 2500⟩ = some 51550#32 ∧
      travelled.positionAt ⟨300#32, 3333⟩ = some 50399#32 ∧ travelled.positionAt ⟨298#32, 9000⟩ = none := by decide

/-! ### The configuration image -/

/-- A step of the check on the number in its register. -/
def crcStepNat (r : Nat) (b : Bool) : Nat :=
  if ((Nat.ble 32768 r) != b) = true then (2 * r % 65536) ^^^ 4129 else 2 * r % 65536

/-- The check over bits on the number in its register, evaluated bit by bit. -/
def crcRun : List Bool → Nat → Nat
  | [], r => r
  | b :: l, 0 => crcRun l (crcStepNat 0 b)
  | b :: l, n + 1 => crcRun l (crcStepNat (n + 1) b)

theorem crcStepNat_eq (r : Half) (b : Bool) : (crcStep r b).toNat = crcStepNat r.toNat b := by
  have hm : r.msb = Nat.ble 32768 r.toNat := by
    rw [BitVec.msb_eq_decide, Bool.eq_iff_iff]; simp
  have hs : (r <<< 1).toNat = 2 * r.toNat % 65536 := by
    rw [BitVec.toNat_shiftLeft, Nat.shiftLeft_eq]; congr 1; omega
  unfold crcStep crcStepNat
  rw [hm]
  cases Nat.ble 32768 r.toNat <;> cases b <;> simp [hs]

theorem crcRun_eq (l : List Bool) (r : Half) : (l.foldl crcStep r).toNat = crcRun l r.toNat := by
  induction l generalizing r with
  | nil => rfl
  | cons b l ih =>
    rw [List.foldl_cons, ih, crcStepNat_eq]
    cases r.toNat <;> rfl

/-- A line record. -/
def lineBytes (function settings filter deadTime duration : Byte) : List Byte :=
  [function, settings, filter, 0#8, deadTime, 0#8, duration, 0#8]

/-- The bytes 8 to 759 of an image that differs in the low byte of W, the travel mode, the bank of station 5, and the
two steps of template 1. -/
def imageBody (w mode bank step0 step1 : Byte) : List Byte :=
  [0x03#8, 0xE8#8, 0#8, w, 2#8, 1#8, 0#8, 100#8, 0#8, 50#8, 0x12#8, 0x34#8, mode, 0xFF#8, 0xFF#8, 0#8] ++
  ((lineBytes 1#8 0x1C#8 2#8 3#8 0#8 ++ (lineBytes 2#8 0#8 0#8 0#8 5#8 ++ (lineBytes 4#8 0#8 0#8 0#8 10#8 ++
    (lineBytes 3#8 0#8 0#8 0#8 0#8 ++ (List.replicate 16 0#8 ++ (lineBytes 5#8 0#8 0#8 0#8 0#8 ++
      List.replicate 8 0#8)))))) ++
  (([0xFF#8, 0xFF#8, 0xFF#8, 0#8, 0xFF#8, bank] ++ List.replicate 26 0xFF#8) ++
  (([0x80#8, 0#8, 1#8, 0xF4#8, 0#8, 0#8] ++ (List.replicate 48 0#8 ++
    ([0xC1#8, 0#8, 0#8, 7#8, 0xC0#8, 0#8] ++ List.replicate 324 0#8))) ++
  (([2#8, 0#8, 0#8, 0#8, 0x41#8, 0#8, 100#8, 0x81#8, 0#8, 0#8] ++ List.replicate 6 0#8) ++
  (([2#8, 0#8, 0#8, 0#8, step0, 0#8, 0#8, step1, 0#8, 0#8] ++ List.replicate 6 0#8) ++
    List.replicate 224 0#8)))))

/-- An image: format, length, identity 0x0001, check, and the rest. -/
def imageWith (check : Half) (body : List Byte) : List Byte :=
  [0x0A#8, 0x01#8, 0x02#8, 0xF8#8, 0x00#8, 0x01#8] ++ (bytes16 check ++ body)

/-- An image that passes every check. -/
def goodImage : List Byte := imageWith 0x443F#16 (imageBody 250#8 1#8 1#8 0x41#8 0x81#8)

/-- The check over an image's body, from its evaluation bit by bit. -/
theorem computedCheck_of_run (img : List Byte) (c : Half) (h : crcRun (bytesBits (img.drop 8)) 65535 = c.toNat) :
    Image.computedCheck img = c :=
  BitVec.eq_of_toNat_eq ((crcRun_eq _ _).trans h)

/-- The checks of an image whose check field is right, before the check of code 5. -/
theorem haltCode_after_check (img : List Byte) (h2 : Image.format img = Config.formatCode)
    (h3 : (Image.lengthField img).toNat = Config.imageBytes)
    (h4 : crcRun (bytesBits (img.drop 8)) 65535 = (Image.checkField img).toNat) :
    Image.haltCode img =
      (if Image.parametersInRange img = false then 5
      else if Image.linesFit img = false then 6
      else if Image.mapFits img = false then 7
      else if Image.namedTemplates img Template.orderingHolds = false then 8
      else if Image.namedTemplates img (fun t => t.linesAreDrive (Image.functionOf img)) = false then 9
      else 0) := by
  simp only [Image.haltCode, h2, h3, computedCheck_of_run img _ h4, ne_eq, not_true_eq_false, if_false]

theorem delivered_good : deliveredImage goodImage = goodImage := by decide +kernel

theorem test_good_image : Image.haltCode (deliveredImage goodImage) = 0 := by
  rw [delivered_good, haltCode_after_check goodImage (by decide +kernel) (by decide +kernel) (by decide +kernel)]
  decide +kernel

/-- W above a quarter of P. -/
theorem test_image_code5 : Image.haltCode (imageWith 0x6156#16 (imageBody 251#8 1#8 1#8 0x41#8 0x81#8)) = 5 := by
  rw [haltCode_after_check _ (by decide +kernel) (by decide +kernel) (by decide +kernel)]
  decide +kernel

/-- An ENC line and a TRAVEL entry in travel mode NONE. -/
theorem test_image_code6 : Image.haltCode (imageWith 0xDABE#16 (imageBody 250#8 0#8 1#8 0x41#8 0x81#8)) = 6 := by
  rw [haltCode_after_check _ (by decide +kernel) (by decide +kernel) (by decide +kernel)]
  decide +kernel

/-- A source map value of 8. -/
theorem test_image_code7 : Image.haltCode (imageWith 0x8E56#16 (imageBody 250#8 1#8 8#8 0x41#8 0x81#8)) = 7 := by
  rw [haltCode_after_check _ (by decide +kernel) (by decide +kernel) (by decide +kernel)]
  decide +kernel

/-- A named template whose first step releases. -/
theorem test_image_code8 : Image.haltCode (imageWith 0xC8EC#16 (imageBody 250#8 1#8 1#8 0x81#8 0x81#8)) = 8 := by
  rw [haltCode_after_check _ (by decide +kernel) (by decide +kernel) (by decide +kernel)]
  decide +kernel

/-- A named template on a SENSE line. -/
theorem test_image_code9 : Image.haltCode (imageWith 0x8C1C#16 (imageBody 250#8 1#8 1#8 0x40#8 0x80#8)) = 9 := by
  rw [haltCode_after_check _ (by decide +kernel) (by decide +kernel) (by decide +kernel)]
  decide +kernel

/-- The codes 2 and 4 and 3, on images that fail before the body is read. -/
theorem test_image_codes_before_the_body :
    Image.haltCode (deliveredImage []) = 2 ∧
      Image.haltCode [0x0A#8, 0x01#8, 0x02#8, 0xF7#8] = 3 ∧
      Image.haltCode [0x0A#8, 0x01#8, 0x02#8, 0xF8#8, 0#8, 0#8, 0#8, 0#8] = 4 := by decide +kernel

/-! ### States that meet the statements' hypotheses, and each command on one of them -/

theorem heeds_live (i : Instr) : live.Heeds i := ⟨rfl, by decide, Or.inr (Or.inl ⟨3, rfl⟩)⟩

theorem heeds_endSlot (i : Instr) : (inEndSlot live).Heeds i := ⟨rfl, by decide, Or.inr (Or.inr ⟨1, rfl⟩)⟩

/-- A frame that the station has been within since its start bit. -/
theorem heeds_within :
    (within live 95).Heeds (.beacon 5#5 5#32 104#16 1000#16) ∧ (within live 47).Heeds (.frameRejected badFrame) ∧
      ¬ (within live 94).Heeds (.beacon 5#5 5#32 104#16 1000#16) := by
  refine ⟨⟨rfl, by decide, Or.inl ⟨_, rfl, by decide +kernel⟩⟩, ⟨rfl, by decide, Or.inl ⟨_, rfl, by decide +kernel⟩⟩, ?_⟩
  rintro ⟨-, -, ⟨bit, h, hc⟩ | ⟨run, h⟩ | ⟨left, h⟩⟩
  · cases h
    exact absurd hc (by decide +kernel)
  · cases h
  · cases h

/-- The station reading its image from a memory. -/
def starting (m : SerialMemory) : State := after (.resetRelease (startWith m)) State.reset

/-- A memory that holds CSDA low. -/
def deadMemory : SerialMemory := { memoryOf [] with pulses := 10 }

/-- The station HALTED with code 1. -/
def haltedStation : State :=
  { after (.memoryNotAnswering none) (starting deadMemory) with
    lpi := { Lpi.reset with state := .reportOnly, decoder := .outside 3 } }

theorem heeds_halted (i : Instr) : haltedStation.Heeds i :=
  ⟨by decide +kernel, by decide +kernel, Or.inr (Or.inl ⟨3, by decide +kernel⟩)⟩

theorem test_witness_BareTick :
    live.pending = [] ∧ live.ltu.sync = .locked ∧ live.ltu.ticked = false ∧ live.ltu.hold = 0 ∧ live.running = true ∧
      live.now.phase + 1 < live.period ∧ live.asc.time = [] ∧ live.tick.now = ⟨5#32, 401⟩ ∧
      live.tick.ltu.ticked = true := by decide +kernel

/-- A station in a hold of one tick. -/
def held : State := { live with ltu := { live.ltu with hold := 1 } }

theorem test_witness_BareTick_hold :
    held.pending = [] ∧ held.ltu.sync = .locked ∧ held.ltu.ticked = false ∧ held.tick.now = held.now ∧
      held.tick.ltu.hold = 0 := by decide +kernel

/-- The second half of a tick: countdown, filter, dead time, pulse and read-back of lines that no command has taken. -/
def secondHalf : State :=
  { onLine (onLine (onLine live 0 fun l =>
      { l with deadTime := 3, record := some { pending := .active, remaining := 2, stamp := none } })
      2 fun l => { l with pulse := 2 }) 1
      fun l => { l with presented := some .active, mismatchTimer := 62, pinHeld := some .inactive } with
    ltu := { live.ltu with ticked := true }
    dcu := { lines := live.dcu.lines.set 1 { DriveLine.reset with claim := 1, limit := 5, countdown := some 2 } } }

theorem test_witness_BareTick_secondHalf :
    secondHalf.pending = [] ∧ secondHalf.running = true ∧ secondHalf.ltu.ticked = true ∧
      (∀ n, (secondHalf.drive n).counted = false → ∀ r, (secondHalf.drive n).countdown = some r → 1 < r) ∧
      (∀ n r, (secondHalf.line n).sampled = false → (secondHalf.line n).record = some r → 1 < r.remaining) ∧
      (secondHalf.drive 1).countdown = some 2 ∧ (secondHalf.tick.drive 1).countdown = some 1 ∧
      (secondHalf.tick.line 0).deadTime = 2 ∧ (secondHalf.tick.line 2).pulse = 1 ∧
      (secondHalf.tick.line 2).presented = some .active ∧ (secondHalf.tick.line 1).presented = some .active ∧
      (secondHalf.tick.line 1).mismatchTimer = 63 ∧ (secondHalf.tick.line 1).mismatch = false ∧
      (secondHalf.tick.tick.tick.line 1).mismatchTimer = 64 ∧ (secondHalf.tick.tick.tick.line 1).mismatch = true := by
  have hd : ∀ n r, (secondHalf.drive n).countdown = some r → r = 2 := by
    intro n r h
    have := (show ∀ n, (secondHalf.drive n).countdown = none ∨ (secondHalf.drive n).countdown = some 2 by
      decide +kernel) n
    rcases this with h' | h' <;> rw [h'] at h <;> simp_all
  have hr : ∀ n r, (secondHalf.line n).record = some r → r.remaining = 2 := by
    intro n r h
    have := (show ∀ n, (secondHalf.line n).record.map FilterRecord.remaining = none ∨
      (secondHalf.line n).record.map FilterRecord.remaining = some 2 by decide +kernel) n
    rw [h] at this
    simpa using this
  exact ⟨by decide, by decide, by decide, fun n _ r h => by rw [hd n r h]; decide,
    fun n r _ h => by rw [hr n r h]; decide, by decide +kernel⟩

/-- R129 to R131: pin levels by polarity, of a DRIVE and a CYCLE_OUT line, and none on a SENSE line. -/
theorem test_outputPin :
    let low := onLine secondHalf 1 fun l => { l with settings := { l.settings with polarity := .activeLow } }
    secondHalf.tick.outputPin 1 = some true ∧ low.tick.outputPin 1 = some false ∧
      secondHalf.tick.outputPin 2 = some true ∧ secondHalf.tick.tick.tick.outputPin 2 = some false ∧
      secondHalf.tick.outputPin 4 = some false ∧ secondHalf.tick.outputPin 0 = none := by decide +kernel

/-- The ticks of LISTEN, a hold of two, a station held in reset, one reading and one HALTED. -/
theorem test_witness_BareTick_others :
    (at_ listening 0#32 10).now.phase + 1 < (at_ listening 0#32 10).period ∧
      listening.period ≤ listening.now.phase + 1 ∧
      ({ live with ltu := { live.ltu with hold := 2 } } : State).tick.ltu.hold = 1 ∧
      State.reset.cfl.run = .configuring ∧ State.reset.cfl.read = .notBegun ∧
      (starting (memoryOf [])).cfl.run = .configuring ∧ (starting (memoryOf [])).tick.cfl.read = .reading 1 ∧
      haltedStation.cfl.run = .halted ∧ haltedStation.pending = [] := by decide +kernel

/-- R134: a first sight behind the LTU's part of its tick takes the new instant, one before it the old. -/
theorem test_first_sight_in_either_order :
    ((after (.firstSight 0) live.tick).line 0).record.map FilterRecord.stamp =
        some (some { instant := some ⟨5#32, 401⟩, position := 100#32 }) ∧
      ((after (.firstSight 0) live).line 0).record.map FilterRecord.stamp =
        some (some { instant := some ⟨5#32, 400⟩, position := 100#32 }) := by decide +kernel

theorem test_witness_PinResetAndRelease :
    State.reset.cfl.run = .configuring ∧ State.reset.cfl.read = .notBegun ∧
      (starting (memoryOf [])).cfl.read = .reading 0 ∧ (starting (memoryOf [])).cfl.address = 3#5 ∧
      State.reset.linkReleased = true ∧ (starting (memoryOf [])).linkReleased = false := by decide +kernel

theorem test_pinReset : after .pinReset live = State.reset := by rfl

theorem test_witness_FailedStartHalts :
    (starting deadMemory).cfl.run = .configuring ∧ (starting deadMemory).cfl.read = .reading 0 ∧
      9 < (starting deadMemory).cfl.memory.pulses ∧
      (starting { memoryOf [] with refuses := some .offsetLow }).cfl.memory.refuses = some .offsetLow ∧
      (after (.memoryNotAnswering (some .offsetLow))
        (starting { memoryOf [] with refuses := some .offsetLow })).cfl.haltCode = 1 ∧
      (after (.memoryNotAnswering none) (starting (memoryOf []))).cfl.haltCode = 0 ∧
      (after (.imageChecks [] 0#8) (starting (memoryOf [0#8]))).cfl.run = .configuring ∧
      (starting (memoryOf [])).cfl.memory.pulses ≤ 9 ∧ (starting (memoryOf [])).cfl.memory.refuses = none ∧
      (starting (memoryOf [])).cfl.read = .reading 0 ∧
      Image.haltCode (deliveredImage (starting (memoryOf [])).cfl.memory.bytes) ≠ 0 ∧
      (after (.memoryNotAnswering none) (starting deadMemory)).cfl.haltCode = 1 := by decide +kernel

theorem test_witness_PassedImageRuns :
    (starting (memoryOf goodImage)).cfl.run = .configuring ∧ (starting (memoryOf goodImage)).cfl.read = .reading 0 ∧
      (starting (memoryOf goodImage)).cfl.memory.pulses ≤ 9 ∧
      (starting (memoryOf goodImage)).cfl.memory.refuses = none ∧
      (memoryOf goodImage).pulses = 0 ∧
      Image.haltCode (deliveredImage (starting (memoryOf goodImage)).cfl.memory.bytes) = 0 :=
  ⟨by decide, by decide, by decide, by decide, by decide, test_good_image⟩

/-- R193: fields of that image, read from its bytes. -/
theorem test_image_fields :
    Image.mapEntry goodImage 3 = some 0 ∧ Image.mapEntry goodImage 5 = some 1 ∧ Image.mapEntry goodImage 0 = none ∧
      Image.subscription goodImage 0 = { Entry.reset with valid := true, delay := 500#24 } ∧
      Image.subscription goodImage 9 = { Entry.reset with
        valid := true, domain := .travel, delay := 7#24, template := 1, qualifier := some { line := 0, level := .active } } ∧
      (Image.template goodImage 0).count = 2 ∧
      (Image.template goodImage 0).steps.get 0 = { op := .assert, line := 1, gap := 100#16 } ∧
      ((Image.template goodImage 0).steps.get 1).op = .release ∧
      allLines.map (Image.functionOf goodImage) = [.sense, .drive, .cycleOut, .zero, .unused, .unused, .enc, .unused] ∧
      (Image.lineSettings goodImage 0).edges = .both ∧ (Image.lineSettings goodImage 1).edges = .rising ∧
      (Image.lineSettings goodImage 1).pulseWidth = 5 ∧ Image.travelMode goodImage = some .pulse := by decide +kernel

/-- A short image halts the start, with the 0xFF bytes behind it kept as identity. -/
theorem test_imageChecks :
    (after (.imageChecks [] 0#8) (starting (memoryOf []))).cfl.haltCode = 2 ∧
      (after (.imageChecks [] 0#8) (starting (memoryOf []))).cfl.identity = 0xFFFF#16 ∧
      (after (.imageChecks [] 0#8) (starting (memoryOf []))).lpi.state = .reportOnly := by decide +kernel

theorem test_witness_InstantArithmetic :
    (0 < 1000 ∧ (400 + 2147483647 * 1000) / 1000 < 2147483648) ∧
      (-2147483648 < ((5#32 : Word) - 7#32).toInt ∧ ((5#32 : Word) - 7#32).toInt < 2147483647) := by decide

theorem test_witness_WrapAndHoldEnd :
    listening.running = true ∧ listening.ltu.sync = .listen ∧ listening.ltu.ticked = false ∧
      listening.period ≤ listening.now.phase + 1 ∧ held.ltu.ticked = false ∧
      listening.ltu.listenCount + 1 < listening.joinWait ∧ held.running = true ∧ held.ltu.sync = .locked ∧
      held.ltu.hold = 1 ∧ (after .listenWrap listening).ltu.listenCount = 1 ∧
      (after .holdEnd held).ltu.hold = 0 := by decide

/-- The station in LISTEN one wrap before its self-start. -/
def lastListen : State := { listening with ltu := { listening.ltu with listenCount := 1 } }

theorem test_witness_SelfStartLocks :
    lastListen.running = true ∧ lastListen.ltu.sync = .listen ∧ lastListen.ltu.ticked = false ∧ lastListen.period ≤ lastListen.now.phase + 1 ∧
      lastListen.joinWait ≤ lastListen.ltu.listenCount + 1 ∧
      (after .selfStart lastListen).ltu.slot = .offered ∧
      (after .selfStart lastListen).tvu.history = [⟨0#32, 100#32⟩] := by decide +kernel

/-- The station one tick before an expiry. -/
def lastPhase : State := at_ live 5#32 999

theorem test_witness_CycleExpiryBeginsTheCycle :
    lastPhase.running = true ∧ lastPhase.ltu.sync = .locked ∧ lastPhase.ltu.ticked = false ∧ lastPhase.ltu.hold = 0 ∧
      lastPhase.period ≤ lastPhase.now.phase + 1 ∧ lastPhase.lpi.state ≠ .muted ∧
      (after .cycleExpiry lastPhase).now = ⟨6#32, 0⟩ ∧ (after .cycleExpiry lastPhase).ltu.slot = .offered ∧
      ((after .cycleExpiry lastPhase).line 2).pulse = 10 := by decide +kernel

/-- A MUTED station with a number of quiet cycles behind it. -/
def mutedAfter (quiet : Nat) (start : Bool) : State :=
  { mutedStation with lpi := { mutedStation.lpi with quietCycles := quiet, frameStart := start } }

theorem test_witness_CycleExpiryInMute :
    (mutedAfter 3 true).running = true ∧ (mutedAfter 3 true).ltu.sync = .locked ∧ (mutedAfter 3 true).ltu.hold = 0 ∧
      (mutedAfter 3 true).ltu.ticked = false ∧ (after .cycleExpiry (mutedAfter 3 true)).ltu.slot = .empty ∧
      (mutedAfter 3 true).period ≤ (mutedAfter 3 true).now.phase + 1 ∧ (mutedAfter 3 true).lpi.state = .muted ∧
      (mutedAfter 3 true).ltu.slot ≠ .sending ∧ (mutedAfter 3 true).lpi.frameStart = true ∧
      (mutedAfter 2 false).lpi.quietCycles + 1 < 4 ∧ (mutedAfter 2 false).lpi.state = .muted ∧
      4 ≤ (mutedAfter 3 false).lpi.quietCycles + 1 ∧ (mutedAfter 3 false).lpi.state = .muted ∧
      (after .cycleExpiry (mutedAfter 2 false)).lpi.quietCycles = 3 ∧
      (after .cycleExpiry (mutedAfter 3 false)).lpi.state = .active ∧
      (after .cycleExpiry (mutedAfter 3 false)).ltu.slot = .offered := by decide +kernel

/-- The station with a time action due at the next tick in slot 0. -/
def aboutToFire : State :=
  { live with asc := { live.asc with
      free := live.asc.free.drop 1
      time := [{ slot := 0, due := ⟨5#32, 401⟩, template := 0, next := 0, held := noLines }] } }

theorem test_witness_TimeHeadDueFires :
    aboutToFire.running = true ∧ aboutToFire.ltu.sync = .locked ∧ aboutToFire.ltu.hold = 0 ∧
      aboutToFire.ltu.ticked = false ∧
      Instant.atOrBefore aboutToFire.period ⟨5#32, 401⟩ aboutToFire.nextInstant = true ∧
      aboutToFire.now.phase + 1 < aboutToFire.period ∧
      ((after .timeHeadDue aboutToFire).drive 1).demand = .active ∧
      (after .timeHeadDue aboutToFire).asc.time.map Action.due = [⟨5#32, 501⟩] := by decide +kernel

/-- The station one tick before an expiry whose new instant a time action is due at. -/
def dueAtExpiry : State :=
  { aboutToFire with
    ltu := lastPhase.ltu
    asc := { aboutToFire.asc with
      time := [{ slot := 0, due := ⟨6#32, 0⟩, template := 0, next := 0, held := noLines }] } }

/-- Log 29: TIME_HEAD_DUE at an expiry, with its boundary and its pass. -/
theorem test_witness_TimeHeadDueFires_expiry :
    dueAtExpiry.running = true ∧ dueAtExpiry.ltu.sync = .locked ∧ dueAtExpiry.ltu.hold = 0 ∧
      dueAtExpiry.ltu.ticked = false ∧
      Instant.atOrBefore dueAtExpiry.period ⟨6#32, 0⟩ dueAtExpiry.nextInstant = true ∧
      dueAtExpiry.period ≤ dueAtExpiry.now.phase + 1 ∧
      (after .timeHeadDue dueAtExpiry).now = ⟨6#32, 0⟩ ∧ ((after .timeHeadDue dueAtExpiry).line 2).pulse = 10 ∧
      ((after .timeHeadDue dueAtExpiry).drive 1).claim = 1 ∧
      (after .timeHeadDue dueAtExpiry).asc.time.map Action.due = [⟨6#32, 100⟩] := by decide +kernel

/-! ### Beacons -/

/-- The distance from a station's instant to the target instant of a beacon. -/
def targetDistance (s : State) (cycle : Word) (phase : Nat) : Int :=
  Instant.distance s.period s.now (Instant.add s.period ⟨cycle, phase⟩ 95)

/-- The station with a streak. -/
def streaked (n : Nat) : State := { live with ltu := { live.ltu with streak := n } }

theorem test_witness_BeaconNotAdopted :
    (∀ i, live.Heeds i) ∧ (∀ i, (streaked 1).Heeds i) ∧
      live.running = true ∧ (5#5 : Address) ≠ live.cfl.address ∧ live.ltu.sync = .locked ∧
      (999#16 : Half).toNat ≠ live.period ∧ (1000#16 : Half).toNat ≤ (1000#16 : Half).toNat ∧
      targetDistance live 5#32 104 < -(live.window : Int) ∧ (live.window : Int) < targetDistance live 5#32 506 ∧
      (streaked 1).ltu.streak < live.strayLimit :=
  ⟨heeds_live, fun _ => ⟨rfl, by decide, Or.inr (Or.inl ⟨3, rfl⟩)⟩, by decide +kernel⟩

theorem test_witness_BeaconAdoptedInListen :
    (∀ i, listening.Heeds i) ∧ listening.running = true ∧ (5#5 : Address) ≠ listening.cfl.address ∧
      listening.ltu.sync = .listen ∧ (1000#16 : Half).toNat = listening.period ∧
      (999#16 : Half).toNat < (1000#16 : Half).toNat ∧
      (after (.beacon 5#5 7#32 999#16 1000#16) listening).now = ⟨8#32, 94⟩ :=
  ⟨fun _ => ⟨rfl, by decide, Or.inr (Or.inl ⟨3, rfl⟩)⟩, by decide +kernel⟩

/-- The distances 1 and W of a forward adoption, and one that enters the next cycle. -/
theorem test_witness_BeaconAdoptedForward :
    (∀ i, live.Heeds i) ∧ live.running = true ∧ (5#5 : Address) ≠ live.cfl.address ∧ live.ltu.sync = .locked ∧
      (1000#16 : Half).toNat = live.period ∧ targetDistance live 5#32 306 = 1 ∧
      targetDistance live 5#32 505 = live.window ∧ targetDistance (at_ live 5#32 900) 5#32 905 = 100 ∧
      (after (.beacon 5#5 5#32 505#16 1000#16) live).now = ⟨5#32, 600⟩ ∧
      (after (.beacon 5#5 5#32 905#16 1000#16) (at_ live 5#32 900)).now = ⟨6#32, 0⟩ :=
  ⟨heeds_live, by decide, by decide, by decide, by decide +kernel⟩

/-- An adoption in place, and one of W backward. -/
theorem test_witness_BeaconAdoptedBackward :
    (∀ i, live.Heeds i) ∧ live.running = true ∧ (5#5 : Address) ≠ live.cfl.address ∧ live.ltu.sync = .locked ∧
      targetDistance live 5#32 305 = 0 ∧ targetDistance live 5#32 105 = -(live.window : Int) ∧
      (after (.beacon 5#5 5#32 105#16 1000#16) live).ltu.hold = 200 :=
  ⟨heeds_live, by decide, by decide, by decide, by decide +kernel⟩

/-- One tick past W with the streak at its limit, within the cycle and into another. -/
theorem test_witness_BeaconMerge :
    (∀ i, (streaked 2).Heeds i) ∧ (streaked 2).strayLimit ≤ (streaked 2).ltu.streak ∧ (streaked 2).ltu.sync = .locked ∧
      (streaked 2).running = true ∧ ((streaked 2).window : Int) < targetDistance (streaked 2) 5#32 506 ∧
      ((streaked 2).window : Int) < targetDistance (streaked 2) 9#32 0 ∧
      (after (.beacon 5#5 9#32 0#16 1000#16) (streaked 2)).now = ⟨9#32, 95⟩ ∧
      (after (.beacon 5#5 9#32 0#16 1000#16) (streaked 2)).fru.counters.merges = 1 :=
  ⟨fun _ => ⟨rfl, by decide, Or.inr (Or.inl ⟨3, rfl⟩)⟩, by decide +kernel⟩

/-- The station MUTED with three quiet cycles behind it. -/
def inMute (s : State) : State := { s with lpi := { s.lpi with state := .muted, faultCount := 8, quietCycles := 3 } }

/-- R153: the fourth quiet cycle at a self-start, at an adoption in LISTEN, and at a jump into another cycle, when the
beacon's start bit fell in the cycle before; none within the cycle; and a beacon whose start bit falls in the cycle. -/
theorem test_quiet_step_at_every_boundary :
    (after .selfStart (inMute lastListen)).lpi.state = .active ∧
      (after .selfStart (inMute lastListen)).ltu.slot = .empty ∧
      (after (.beacon 5#5 7#32 999#16 1000#16) (within (inMute listening) 95)).lpi.state = .active ∧
      (after (.beacon 5#5 5#32 905#16 1000#16) (within (inMute (at_ live 5#32 900)) 95)).lpi.state = .active ∧
      (after (.beacon 5#5 5#32 505#16 1000#16) (within (inMute live) 95)).lpi.state = .muted ∧
      (after (.beacon 5#5 9#32 0#16 1000#16) (within (inMute (streaked 2)) 95)).lpi.state = .active ∧
      (after (.beacon 5#5 5#32 506#16 1000#16) (within (inMute (streaked 2)) 95)).lpi.quietCycles = 3 ∧
      (after (.beacon 5#5 9#32 0#16 1000#16) (inMute (streaked 2))).lpi.quietCycles = 0 := by decide +kernel

/-! ### Marks -/

/-- The station with an entry changed. -/
def withEntry (i : Fin 64) (f : Entry → Entry) : State := live.mapEntry i f

/-- The station with entry 9 seen at 10, on condition of an active L0. -/
def qualified : State :=
  withEntry 9 fun e => { e with lastSeen := some 10#8, qualifier := some { line := 0, level := .active } }

/-- R25, R26, R31: entries that marks name, one with unused channel bits set, and none for a channel without a valid
entry and for a source that is not mapped. -/
theorem test_names :
    live.Names 5#5 1 9 ∧ live.Names 7#5 0 0 ∧ qualified.Names 5#5 ((0xF9#8 : Byte).toNat % 8) 9 ∧
      (∀ i, ¬live.Names 5#5 2 i) ∧ (∀ i, ¬live.Names 9#5 0 i) :=
  ⟨(live.lookup_iff 5#5 1 9).mp (by decide +kernel), (live.lookup_iff 7#5 0 0).mp (by decide +kernel),
    (qualified.lookup_iff 5#5 1 9).mp (by decide +kernel), (live.lookup_none_iff 5#5 2).mp (by decide +kernel),
    (live.lookup_none_iff 9#5 0).mp (by decide +kernel)⟩

/-- R33: an absent qualifier, one that is met and one that is not. -/
theorem test_qualifiers :
    live.QualifierHolds (live.entry 0).qualifier ∧ live.QualifierHolds (some { line := 0, level := .inactive }) ∧
      ¬qualified.QualifierHolds (qualified.entry 9).qualifier :=
  ⟨(live.qualifierMet_iff _).mp (by decide +kernel), (live.qualifierMet_iff _).mp (by decide +kernel),
    (qualified.qualifierMet_false_iff _).mp (by decide +kernel)⟩

theorem test_witness_MarkTakesTheSteps :
    (∀ i, live.Heeds i) ∧ (∀ i, qualified.Heeds i) ∧
      live.running = true ∧ live.ltu.sync = .locked ∧ (5#5 : Address) ≠ live.cfl.address ∧
      (999#16 : Half).toNat < live.period ∧
      qualified.sequenceTest 9 10#8 = none ∧ (qualified.sequenceTest 9 11#8).isSome = true ∧
      (live.entry 0).domain = .time ∧
      (live.entry 9).domain = .travel ∧ live.positionAt ⟨4#32, 999⟩ = none ∧
      live.positionAt ⟨5#32, 0⟩ = some 60#32 :=
  ⟨heeds_live, fun _ => ⟨rfl, by decide, Or.inr (Or.inl ⟨3, rfl⟩)⟩, by decide +kernel⟩

/-- A TRAVEL mark at half the present phase: 80 counts there, and 7 behind them lie 13 counts back, a late fire whose
whole template runs at once; one from the cycle before the history is too old. -/
theorem test_mark :
    (after (.mark 5#5 1 4#8 5#16 200#16) live).fru.counters.lateFires = 1 ∧
      (after (.mark 5#5 1 4#8 5#16 200#16) live).asc.free = live.asc.free ∧
      (after (.mark 5#5 1 4#8 4#16 200#16) live).fru.events.markTooOld = true := by decide +kernel

/-- R190: the unused bits of a MARK's first byte are part of its check and of nothing else. -/
theorem test_mark_with_unused_bits :
    markChannel 0xF9#8 = 1 ∧ markChannel 7#8 = 7 ∧
      (after (.mark 5#5 0xF9#8 4#8 5#16 200#16) live) = after (.mark 5#5 1#8 4#8 5#16 200#16) live ∧
      frameOfCommand (.mark 5#5 0xF9#8 4#8 5#16 200#16) ≠ frameOfCommand (.mark 5#5 1#8 4#8 5#16 200#16) ∧
      (frameOfCommand (.mark 5#5 0xF9#8 4#8 5#16 200#16)).map WireFrame.malformed = some false ∧
      (frameOfCommand (.mark 5#5 0xF9#8 4#8 5#16 200#16)).bind (decodeFrame (startWith (memoryOf []))) =
        some (.mark 5#5 0xF9#8 4#8 5#16 200#16) := by decide +kernel

theorem test_witness_SequenceTestTable :
    ((withEntry 9 fun e => { e with lastSeen := some 10#8 }).entry 9).lastSeen = some 10#8 ∧
      (live.entry 9).lastSeen = none ∧ (11#8).toNat + 255 - (10#8).toNat = 256 ∧
      0 < ((12#8).toNat + 255 - (10#8).toNat) % 256 := by decide +kernel

/-- A request that lies ahead, and one due at the present instant. -/
theorem test_witness_MarkBecomesTimeAction :
    (∀ i, live.Heeds i) ∧ live.running = true ∧ live.ltu.sync = .locked ∧ (300#16 : Half).toNat < live.period ∧
      (900#16 : Half).toNat < live.period ∧ (live.entry 0).lastSeen = none ∧ (live.entry 0).domain = .time ∧
      live.asc.free.head? = some 0 ∧ (7#5 : Address) ≠ live.cfl.address ∧
      Instant.distance live.period (Instant.add live.period ⟨5#32, 300⟩ 500) live.now = -400 ∧
      Instant.distance live.period (Instant.add live.period ⟨4#32, 900⟩ 500) live.now = 0 ∧
      (after (.mark 7#5 0 4#8 5#16 300#16) live).asc.time.map Action.due = [⟨5#32, 800⟩] :=
  ⟨heeds_live, by decide, by decide, by decide, by decide, by decide +kernel⟩

theorem test_witness_RebuiltCycleIsNearest : live.locked = true ∧ (999#16 : Half).toNat < live.period := by decide

theorem test_witness_RetimeSetsTheShadow :
    (∀ i, live.Heeds i) ∧ live.running = true ∧ (5#5 : Address) ≠ live.cfl.address ∧ live.ltu.sync = .locked ∧
      live.addressed 3#8 = true ∧ live.addressed 255#8 = true ∧ tagAccepted live.srh.lineTag 0x1234#16 = true ∧
      (9#8).toNat < 64 ∧ (live.entry 9).valid = true ∧ (live.entry 63).valid = false ∧ ¬ (64#8).toNat < 64 ∧
      ((after (.retime 5#5 3#8 0x1234#16 9#8 77#24) live).entry 9).shadow = some 77#24 ∧
      (after (.retime 5#5 3#8 0x1234#16 64#8 77#24) live).fru.counters.refusedRequests = 1 :=
  ⟨heeds_live, by decide, by decide, by decide, by decide +kernel⟩

/-! ### Actions, claims and travel -/

/-- The station with an action of template 0 in each schedule, one step into it, holding L1 for 5 × 16 ticks at most. -/
def holding : State :=
  { live with
    asc := { live.asc with
      free := live.asc.free.drop 2
      time := [{ slot := 0, due := ⟨5#32, 900⟩, template := 0, next := 1, held := noLines.set 1 true }]
      travel := [{ slot := 1, due := 140#32, template := 0, next := 1, held := noLines.set 1 true }] }
    dcu := { lines := live.dcu.lines.set 1 { DriveLine.reset with claim := 2, limit := 5, countdown := some 1 } } }

theorem slots_holding : holding.SlotsPartitioned := by
  have h : holding.asc.free ++ (holding.asc.time.map Action.slot ++ holding.asc.travel.map Action.slot) =
      (List.finRange 48).drop 2 ++ [0, 1] := by decide +kernel
  unfold State.SlotsPartitioned
  rw [h]
  exact List.perm_append_comm.trans (List.Perm.of_eq (by decide +kernel))

theorem fits_templates : live.sbs.TemplatesFit := by
  unfold Sbs.TemplatesFit
  decide +kernel

theorem claims_holding : holding.ClaimsSound := by
  refine ⟨fits_templates, ?_, ?_, ?_⟩
  · intro a ha
    simp only [holding, List.mem_singleton] at ha
    subst ha
    exact ⟨by decide +kernel, by decide +kernel, by decide +kernel⟩
  · intro a ha
    simp only [holding, List.mem_singleton] at ha
    subst ha
    exact ⟨by decide +kernel, by decide +kernel, by decide +kernel⟩
  · unfold State.ClaimsMatch
    decide +kernel

theorem test_witness_PassEndsWithNoHeadDue :
    (({ schedule := holding.asc.time, free := [], dcu := holding.dcu } : Pool Instant).pass holding.timeDomain
      holding.sbs.templates).schedule.map Action.due = [⟨5#32, 900⟩] := by decide +kernel

/-- A head that is due, one that is not, and an empty schedule; the pass of the first is its turn and the rest. -/
theorem test_witness_PassEndsWithNoHeadDue_turns :
    (timeRules 1000 ⟨5#32, 401⟩).isDue ⟨5#32, 401⟩ = true ∧ holding.timeDomain.isDue ⟨5#32, 900⟩ = false ∧
      live.timePool.schedule = [] ∧
      ((aboutToFire.timePool.pass (timeRules 1000 ⟨5#32, 401⟩) live.sbs.templates).dcu.lines.get 1).claim = 1 ∧
      ((aboutToFire.timePool.pass (timeRules 1000 ⟨5#32, 400⟩) live.sbs.templates).dcu.lines.get 1).claim = 0 ∧
      (aboutToFire.timePool.pass (timeRules 1000 ⟨5#32, 501⟩) live.sbs.templates).free = live.asc.free := by
  decide +kernel

/-- A template of two steps at its last one, and at its first. -/
theorem test_witness_TurnFiresOneStep :
    (1 : Fin 4).val + 1 = (live.sbs.templates.get 0).count ∧ (0 : Fin 4).val + 1 < (live.sbs.templates.get 0).count ∧
      ((live.sbs.templates.get 0).steps.get 0).op = .assert ∧ ((live.sbs.templates.get 0).steps.get 1).op = .release ∧
      ((live.sbs.templates.get 0).steps.get 2).op = .noOp ∧
      ((live.sbs.templates.get 0).steps.get 0).line = 1 := by decide +kernel

/-- The late limits: 100 ticks and 50 counts late are admitted, one more is missed; and the present point itself. -/
theorem test_witness_AdmissionOutcomes :
    live.asc.free.head? = some 0 ∧ Instant.distance live.period ⟨5#32, 299⟩ live.now = live.timeLateLimit + 1 ∧
      Instant.distance live.period ⟨5#32, 300⟩ live.now = live.timeLateLimit ∧
      Instant.distance live.period ⟨5#32, 400⟩ live.now = 0 ∧
      signedDifference live.tvu.position 49#32 = live.travelLateLimit + 1 ∧
      signedDifference live.tvu.position 50#32 = live.travelLateLimit ∧
      signedDifference live.tvu.position 100#32 = 0 ∧
      (live.admitTime ⟨5#32, 299⟩ 0).fru.counters.missed = 1 := by decide +kernel

/-- The station with no slot free. -/
def noSlot : State := { live with asc := { live.asc with free := [] } }

theorem test_witness_NoSlotRefusesTheRequest :
    noSlot.asc.free = [] ∧ Instant.distance noSlot.period ⟨5#32, 300⟩ noSlot.now ≤ noSlot.timeLateLimit ∧
      signedDifference noSlot.tvu.position 50#32 ≤ noSlot.travelLateLimit := by decide

theorem test_witness_OnTimeExpiryReleasesTheLine :
    holding.running = true ∧ (holding.drive 1).counted = false ∧ (holding.drive 1).countdown = some 1 ∧
      holding.ClaimsSound ∧
      (after (.onTimeExpiry 1) holding).asc.time = [] ∧ (after (.onTimeExpiry 1) holding).asc.travel = [] ∧
      ((after (.onTimeExpiry 1) holding).drive 1).claim = 0 :=
  ⟨by decide, by decide +kernel, by decide +kernel, claims_holding, by decide +kernel, by decide +kernel,
    by decide +kernel⟩

/-- The expiry on L1 with a head that holds L4 as well, and with or without another claim on L4. -/
def secondLine (claim : Nat) : State :=
  { holding with
    asc := { holding.asc with
      time := [{ slot := 0, due := ⟨5#32, 900⟩, template := 0, next := 1, held := (noLines.set 1 true).set 4 true }] }
    dcu := { lines := holding.dcu.lines.set 4 { DriveLine.reset with claim := claim, limit := 5, countdown := some 9 } } }

/-- R97: the second line's countdown stops with its last claim, and else runs on; a line that no action held stays. -/
theorem test_witness_OnTimeExpiryReleasesTheLine_secondLine :
    ((after (.onTimeExpiry 1) (secondLine 1)).drive 4).countdown = none ∧
      ((after (.onTimeExpiry 1) (secondLine 1)).drive 4).claim = 0 ∧
      ((after (.onTimeExpiry 1) (secondLine 2)).drive 4).countdown = some 9 ∧
      ((after (.onTimeExpiry 1) (secondLine 2)).drive 4).claim = 1 ∧
      (after (.onTimeExpiry 1) (secondLine 2)).drive 0 = (secondLine 2).drive 0 := by decide +kernel

theorem test_witness_CountdownFollowsTheDemand :
    ({ DriveLine.reset with limit := 5 }.addClaim).countdown = some 80 ∧ DriveLine.reset.claim = 0 ∧
      DriveLine.reset.limit = 0 ∧ ({ DriveLine.reset with claim := 1, countdown := some 7 }.addClaim).countdown = some 7 ∧
      ({ DriveLine.reset with claim := 1, countdown := some 7 }.dropClaim).countdown = none ∧
      ({ DriveLine.reset with claim := 2, countdown := some 7 }.dropClaim).countdown = some 7 := by decide

/-- A record whose width runs out. -/
def lastSample (level : Level) (stamp : Option Stamp) : FilterRecord :=
  { pending := level, remaining := 1, stamp := stamp }

/-- The station in another travel mode. -/
def travelling (m : TravelMode) (n : LineId) (level : Level) : State :=
  sighted { live with tvu := { live.tvu with mode := m } } n (lastSample level none)

/-- Phase A rising with B low counts forward, falling with B low backward; B rising with A low backward; PULSE counts L6
rising alone. -/
theorem test_witness_EncoderEdgesCount :
    (travelling .quad 6 .active).running = true ∧ (lastSample .active none).remaining ≤ 1 ∧
      (travelling .quad 6 .active).functionOf 6 = .enc ∧
      ((travelling .quad 6 .active).line 6).record = some (lastSample .active none) ∧
      ((travelling .quad 6 .active).line 6).sampled = false ∧
      (after (.edgeAccept 6) (travelling .quad 6 .active)).tvu.position = 101#32 ∧
      (after (.edgeAccept 6) (travelling .quad 6 .inactive)).tvu.position = 99#32 ∧
      (after (.edgeAccept 7) (travelling .quad 7 .active)).tvu.position = 99#32 ∧
      (after (.edgeAccept 7) (travelling .quad 7 .inactive)).tvu.position = 101#32 ∧
      (after (.edgeAccept 6) (travelling .pulse 6 .active)).tvu.position = 101#32 ∧
      (after (.edgeAccept 6) (travelling .pulse 6 .inactive)).tvu.position = 100#32 :=
  ⟨by decide, by decide, by decide +kernel⟩

/-- A backward count with one action in the travel schedule, due at some position. -/
def backwardWith (due : Word) : State :=
  { travelling .quad 7 .active with
    asc := { live.asc with
      free := live.asc.free.drop 1
      travel := [{ slot := 0, due := due, template := 0, next := 0, held := noLines }] } }

/-- R69: a tail at the wrap becomes the head, and the pass at 99 counts fires it; one that is not stays. R75: a head due
at the new position fires. -/
theorem test_witness_EncoderEdgesCount_pass :
    signedDifference 0x80000063#32 99#32 = -2147483648 ∧ signedDifference 140#32 99#32 ≠ -2147483648 ∧
      (after (.edgeAccept 7) (backwardWith 0x80000063#32)).asc.travel = [] ∧
      (after (.edgeAccept 7) (backwardWith 140#32)).asc.travel = (backwardWith 140#32).asc.travel ∧
      (after (.edgeAccept 7) (backwardWith 99#32)).asc.travel.map Action.due = [199#32] ∧
      ((after (.edgeAccept 7) (backwardWith 99#32)).drive 1).claim = 1 := by decide +kernel

/-- R120: the kinds of edge that each selection picks. -/
theorem test_edge_kinds :
    EdgeSelection.rising.Picks .active ∧ ¬EdgeSelection.rising.Picks .inactive ∧
      EdgeSelection.falling.Picks .inactive ∧ ¬EdgeSelection.falling.Picks .active ∧
      EdgeSelection.both.Picks .active ∧ EdgeSelection.both.Picks .inactive := by
  simp [EdgeSelection.Picks]

theorem test_witness_ZeroEdgeKeepsDistances :
    holding.running = true ∧ (lastSample .active none).remaining ≤ 1 ∧
      (sighted holding 3 (lastSample .active none)).functionOf 3 = .zero ∧
      ((sighted holding 3 (lastSample .active none)).line 3).record = some (lastSample .active none) ∧
      (live.line 3).settings.edges = .rising ∧ ((sighted holding 3 (lastSample .active none)).line 3).sampled = false ∧
      (after (.edgeAccept 3) (sighted holding 3 (lastSample .active none))).tvu.position = 0#32 ∧
      (after (.edgeAccept 3) (sighted holding 3 (lastSample .active none))).asc.travel.map Action.due = [40#32] ∧
      (after (.edgeAccept 3) (sighted holding 3 (lastSample .active none))).tvu.history = [⟨5#32, 0xFFFFFFD8#32⟩] :=
  ⟨by decide, by decide, by decide +kernel⟩

theorem test_witness_InterpolationLiesBetween :
    travelled.locked = true ∧ travelled.HistorySound ∧
      (⟨301#32, 51200#32⟩ ∈ travelled.tvu.history ∧ ⟨302#32, 52600#32⟩ ∈ travelled.tvu.history) ∧
      travelled.tvu.history.head? = some ⟨299#32, 48800#32⟩ ∧ ((298#32 : Word) - 299#32).toInt < 0 ∧
      (listening.tvu.history = [] ∧ listening.positionAt ⟨0xFFFFFFFF#32, 5⟩ = none) ∧
      0 ≤ signedDifference 1000#32 990#32 ∧ signedDifference 990#32 1000#32 ≤ 0 ∧
      interpolate 1000#32 990#32 5500 10000 = 995#32 :=
  ⟨by decide, ⟨by decide, ⟨by decide, by decide, by decide, trivial⟩, fun _ => by decide, fun h => absurd h (by decide)⟩,
    ⟨by simp [travelled], by simp [travelled]⟩, by decide, by decide, by decide, by decide, by decide, by decide⟩

/-! ### Local lines -/

theorem test_witness_FirstSightRecordsOrAccepts :
    live.running = true ∧ (live.functionOf 0).sampled = true ∧ (live.line 0).record = none ∧
      (live.line 0).sampled = false ∧ (live.line 6).sampled = false ∧ (listening.line 0).sampled = false ∧
      0 < (live.line 0).settings.filterWidth ∧ live.functionOf 0 = .sense ∧ live.ltu.sync = .locked ∧
      listening.functionOf 0 = .sense ∧ listening.ltu.sync = .listen ∧
      (live.functionOf 6).sampled = true ∧ live.functionOf 6 ≠ .sense ∧ (live.line 6).record = none ∧
      (live.line 6).settings.filterWidth = 0 ∧
      ((after (.firstSight 0) live).line 0).record.map FilterRecord.remaining = some 2 ∧
      (after (.firstSight 6) live).tvu.position = 101#32 := by decide +kernel

/-- The stamp of a first sight at (5, 390) and 95 counts. -/
def stamped : Stamp := { instant := some ⟨5#32, 390⟩, position := 95#32 }

/-- The station with the last sample of a rising edge of L0 before it. -/
def risingL0 : State := sighted live 0 (lastSample .active (some stamped))

theorem test_witness_NoTraceWithoutCapture :
    (lastSample .active (some stamped)).remaining ≤ 1 ∧ (risingL0.line 0).record ≠ none ∧
      risingL0.running = true ∧ (risingL0.line 0).record = some (lastSample .active (some stamped)) ∧
      risingL0.functionOf 0 = .sense ∧ (risingL0.line 0).sampled = false ∧
      ((onLine risingL0 0 fun l => { l with deadTime := 1 }).line 0).deadTime = 1 ∧
      ((after (.filterReversion 0) risingL0).line 0).record = none :=
  ⟨by decide +kernel, by decide +kernel, by decide +kernel⟩

/-- L0 that selects rising edges before a falling one, and L0 in LISTEN before an edge without an instant. -/
theorem test_witness_NoTraceWithoutCapture_forms :
    let falling := sighted (onLine live 0 fun l => { l with settings := { l.settings with edges := .rising } }) 0
      (lastSample .inactive (some stamped))
    let early := sighted listening 0 (lastSample .active (some { instant := none, position := 95#32 }))
    falling.functionOf 0 = .sense ∧ (falling.line 0).settings.edges = .rising ∧
      early.functionOf 0 = .sense ∧ early.running = true ∧
      (early.line 0).record = some (lastSample .active (some { instant := none, position := 95#32 })) ∧
      (after (.edgeAccept 0) early).mku = early.mku ∧ (after (.edgeAccept 0) falling).mku = falling.mku := by
  decide +kernel

/-- L0 with both routes: counter, queue and subscription of the station's own bank; and a queue of sixteen. -/
theorem test_witness_CaptureTakesItsRoutes :
    risingL0.running = true ∧ risingL0.functionOf 0 = .sense ∧
      (risingL0.line 0).record = some (lastSample .active (some stamped)) ∧
      (risingL0.line 0).sampled = false ∧ (risingL0.line 0).settings.edges = .both ∧ (risingL0.line 0).deadTime = 0 ∧
      (risingL0.line 0).settings.publish = true ∧ (risingL0.line 0).settings.localRoute = true ∧
      risingL0.mku.queue.length < 16 ∧
      (after (.edgeAccept 0) risingL0).mku.queue = [⟨0, 0#8, ⟨5#32, 390⟩⟩] ∧
      (after (.edgeAccept 0) risingL0).mku.counters.get 0 = 1#8 ∧
      (after (.edgeAccept 0) risingL0).asc.time.map Action.due = [⟨5#32, 890⟩] ∧
      ((after (.edgeAccept 0) risingL0).line 0).deadTime = 3 :=
  ⟨by decide, by decide +kernel, by decide +kernel, by decide +kernel⟩

theorem test_witness_CaptureTakesItsRoutes_overrun :
    let s : State := { risingL0 with mku := { risingL0.mku with queue := List.replicate 16 ⟨0, 0#8, ⟨5#32, 390⟩⟩ } }
    16 ≤ s.mku.queue.length ∧ (after (.edgeAccept 0) s).mku.queue.length = 16 ∧
      (after (.edgeAccept 0) s).fru.counters.markOutDrops = 1 ∧
      (after (.edgeAccept 0) s).asc.time.map Action.due = [⟨5#32, 890⟩] := by decide +kernel

/-- The same edge of L0 with other routes. -/
def routed (publish localRoute : Bool) : State :=
  onLine risingL0 0 fun l => { l with settings := { l.settings with publish := publish, localRoute := localRoute } }

theorem test_witness_CaptureTakesItsRoutes_forms :
    (after (.edgeAccept 0) (routed false false)).mku = live.mku ∧
      (after (.edgeAccept 0) (routed false true)).mku.counters.get 0 = 1#8 ∧
      (after (.edgeAccept 0) (routed false true)).mku.queue = [] ∧
      (after (.edgeAccept 0) (routed false true)).asc.time.length = 1 ∧
      (after (.edgeAccept 0) (routed true false)).mku.queue.length = 1 ∧
      (after (.edgeAccept 0) (routed true false)).asc = live.asc := by decide +kernel

/-- The station with running timers and a line driven ACTIVE, some disagreeing ticks behind it. -/
def timersAt (ticks : Nat) : State :=
  onLine (onLine (onLine live 0 fun l => { l with deadTime := 1 }) 2 fun l => { l with pulse := 1 }) 1
    fun l => { l with presented := some .active, mismatchTimer := ticks }

/-- The same before the 64th. -/
def timers : State := timersAt 63

theorem test_witness_LineTimersRunOut :
    timers.running = true ∧ (timers.line 0).deadTime = 1 ∧ (timers.line 2).pulse = 1 ∧
      (timers.line 0).deadCounted = false ∧ (timers.line 2).pulseCounted = false ∧
      ((after (.deadTimeExpiry 0) timers).line 0).deadTime = 0 ∧
      ((after (.pulseEnd 2) timers).line 2).pulse = 0 := by decide +kernel

/-- The last tick of a cycle, at which a pulse of width 1 ends. -/
def shortPulse : State :=
  onLine lastPhase 2 fun l => { l with settings := { l.settings with pulseWidth := 1 }, pulse := 1 }

/-- R135: the boundary and the end of a pulse of width 1 in one tick: the line stays ACTIVE, whichever is first. -/
theorem test_pulse_ends_at_a_boundary :
    ((afterAll [.cycleExpiry, .pulseEnd 2] shortPulse).line 2).pulse = 1 ∧
      ((afterAll [.cycleExpiry, .pulseEnd 2] shortPulse).line 2).pulseCounted = true ∧
      ((afterAll [.pulseEnd 2, .cycleExpiry] shortPulse).line 2).pulse = 1 ∧
      ((afterAll [.cycleExpiry, .pulseEnd 2] shortPulse).tick.line 2).presented = some .active ∧
      ((afterAll [.pulseEnd 2, .cycleExpiry] shortPulse).tick.line 2).presented = some .active := by decide +kernel

/-- R127, R122, R8, log 14: a dead time of 1 does not end in the tick of its capture, no line has two samples in a tick,
and no tick has two advances. -/
theorem test_parts_of_a_tick_once :
    let short := onLine risingL0 0 fun l => { l with settings := { l.settings with deadTime := 1, filterWidth := 1 } }
    let sight := after (.firstSight 0) (onLine short 0 fun l => { l with record := none })
    ((afterAll [.edgeAccept 0, .deadTimeExpiry 0] short).line 0).deadTime = 1 ∧
      after (.edgeAccept 0) sight = sight ∧ after (.filterReversion 0) sight = sight ∧
      ((after (.edgeAccept 0) sight.tick.tick).line 0).filtered = .active ∧
      afterAll [.timeHeadDue, .timeHeadDue] aboutToFire = after .timeHeadDue aboutToFire := by decide +kernel

/-- The state in the second half of its tick. -/
def halfway (s : State) : State := { s with ltu := { s.ltu with ticked := true } }

/-- Second halves in which a countdown and a filter record run out with no command that names them. -/
theorem test_witness_BareTick_runsOut :
    (halfway holding).pending = [] ∧ (halfway holding).running = true ∧ (holding.drive 1).counted = false ∧
      (holding.drive 1).countdown = some 1 ∧ ((halfway holding).tick.drive 1).countdown = none ∧
      ((halfway holding).tick.drive 1).claim = 0 ∧ (halfway holding).tick.asc.time = [] ∧
      (halfway holding).tick.fru.events.driveTimeout = true ∧
      (halfway risingL0).pending = [] ∧ (risingL0.line 0).sampled = false ∧ (risingL0.line 0).record ≠ none ∧
      ((halfway risingL0).tick.line 0).filtered = .active ∧ ((halfway risingL0).tick.line 0).record = none := by
  decide +kernel

/-- Each mark, and the commands whose part of the tick it says has been taken. -/
theorem test_witness_BareTick_marks :
    (live.tick).ltu.ticked = true ∧ ((after (.firstSight 0) live).line 0).sampled = true ∧
      ((after (.onTimeExpiry 1) holding).drive 1).counted = true ∧
      ((after (.mismatchDetected 1) timers).line 1).compared = true := by decide +kernel

theorem test_witness_ReadBackSetsAndClears :
    timers.running = true ∧ timers.functionOf 1 = .drive ∧ (timers.line 1).presented = some .active ∧
      (timers.line 1).compared = false ∧
      (after (.mismatchDetected 1) timers).fru.events.driveMismatch = true ∧
      ((after (.mismatchDetected 1) timers).line 1).mismatchTimer = 64 ∧
      ((after (.mismatchDetected 1) (timersAt 64)).line 1).mismatchTimer = 64 ∧
      ((after (.mismatchDetected 1) (timersAt 0)).line 1).mismatchTimer = 1 ∧
      ((after (.mismatchDetected 1) (timersAt 62)).line 1).mismatchTimer = 63 ∧
      ((after (.mismatchDetected 1) (timersAt 62)).line 1).mismatch = false ∧
      (after (.mismatchDetected 1) (timersAt 62)).fru.events.driveMismatch = false ∧
      ((after (.readBackAgreement 1) (after (.mismatchDetected 1) timers).clearMarks).line 1).mismatch = false := by
  decide +kernel

/-! ### The line pair -/

/-- An idle line, with a beacon offered. -/
def offering : State := { live with ltu := { live.ltu with slot := .offered } }

/-- An idle line, with a capture queued and page 5 asked for. -/
def queueing : State :=
  { live with
    mku := { live.mku with queue := [⟨2, 9#8, ⟨5#32, 390⟩⟩] }, fru := { live.fru with reportSlot := .waiting 5 } }

/-- The same without the capture. -/
def reporting : State := { queueing with mku := live.mku }

theorem test_witness_CandidatesGoInOrder :
    offering.lpi.transmission = none ∧ offering.lpi.decoder = .outside 3 ∧ offering.lpi.state = .active ∧
      offering.ltu.slot = .offered ∧ queueing.ltu.slot ≠ .offered ∧ queueing.lpi.decoder = .outside 3 ∧
      queueing.mku.queue = [⟨2, 9#8, ⟨5#32, 390⟩⟩] ∧ reporting.mku.queue = [] ∧
      reporting.fru.reportSlot = .waiting 5 ∧
      (after .transmitStart offering).lpi.transmission.map Transmission.candidate = some .beacon ∧
      (after .transmitStart queueing).lpi.transmission.map Transmission.candidate = some .mark ∧
      (after .transmitStart reporting).fru.reportSlot = .sending 5 := by decide +kernel

/-- R155: the choice before the expiry of its tick finds nothing and begins none; the beacon that the expiry offers goes at
the next tick, and with no choice before it in its own. -/
theorem test_choice_before_the_expiry :
    let chosen := after .transmitStart lastPhase
    lastPhase.lpi.chosen = false ∧ lastPhase.ltu.slot ≠ .offered ∧ chosen.lpi.chosen = true ∧
      chosen.lpi.transmission = none ∧ after .transmitStart chosen = chosen ∧
      chosen.tick.ltu.slot = .offered ∧ after .transmitStart chosen.tick = chosen.tick ∧
      chosen.tick.tick.lpi.transmission = none ∧ chosen.tick.tick.lpi.chosen = false ∧
      chosen.tick.tick.ltu.slot = .offered ∧
      chosen.tick.tick.tick.tick.lpi.transmission.map (fun x => x.frame.payload) =
        some (beaconPayload 6#32 1#16 1000#16) ∧
      lastPhase.tick.tick.lpi.transmission.map (fun x => x.frame.payload) =
        some (beaconPayload 6#32 0#16 1000#16) := by decide +kernel

/-- A choice in MUTED, and in HALTED with no report asked for; and lines on which none falls. -/
theorem test_witness_CandidatesGoInOrder_none :
    (after .transmitStart mutedStation).lpi.chosen = true ∧ (after .transmitStart haltedStation).lpi.chosen = true ∧
      haltedStation.pending = [] ∧ (after .transmitStart haltedStation).tick.lpi.chosen = false ∧
      ({ offering with lpi := { live.lpi with decoder := .outside 2 } } : State).mayBegin = false ∧
      (within offering 5).mayBegin = false := by decide +kernel

/-- R190: the first bits of a station's own beacon, start bit, class 0, address 3, length 8, the first bits of its cycle, and
its end slot. -/
theorem test_ltx_bits :
    (List.range 14).map (fun bit => (sendingAt live .beacon bit).ltx none) =
        [false, false, false, false, false, false, false, true, true, true, false, false, false, false] ∧
      ((sendingAt live .beacon 42).ltx none, (sendingAt live .beacon 44).ltx none) = (true, true) ∧
      (sendingAt live .beacon 93).ltx none = true ∧ (sendingAt live .beacon 94).ltx none = true := by decide +kernel

/-- The HALTED station asked for page 7. -/
def haltedReporting : State :=
  { haltedStation with fru := { haltedStation.fru with reportSlot := .waiting 7 } }

/-- A REPORT_ONLY station sends its report and nothing else; a MUTED and a SILENT one nothing. -/
theorem test_witness_CandidatesGoInOrder_states :
    haltedReporting.lpi.state = .reportOnly ∧ haltedReporting.lpi.decoder = .outside 3 ∧
      (after .transmitStart haltedReporting).fru.reportSlot = .sending 7 ∧
      (∀ p, haltedStation.fru.reportSlot ≠ .waiting p) ∧ mutedStation.lpi.state = .muted ∧
      State.reset.lpi.state = .silent := by decide +kernel

/-- The station with page 6 held behind its report of page 5 on the wire. -/
def onTheWire (c : Candidate) : State :=
  sendingAt { live with ltu := { live.ltu with slot := if c = .beacon then .sending else .empty }
                        fru := { live.fru with reportSlot := .sending 5, heldPage := some 6 } } c 8

/-- The same at another bit. -/
def atBit (c : Candidate) (bit : Nat) : State := sendingAt (onTheWire c) c bit

theorem test_witness_LostArbitrationReturnsTheCandidate :
    (onTheWire .report).lpi.transmission.map Transmission.bit = some 8 ∧
      (onTheWire .report).fru.reportSlot = .sending 5 ∧
      (onTheWire .mark).lpi.decoder = .inside 8 true ∧
      (after .arbitrationLost (onTheWire .mark)).lpi.decoder = .inside 8 true ∧
      (onTheWire .report).ltx none = true ∧ (atBit .report 6).ltx none = false ∧
      (after .arbitrationLost (onTheWire .report)).fru.reportSlot = .waiting 6 ∧
      (after .arbitrationLost (atBit .report 0)).fru.reportSlot = .sending 5 ∧
      (after .arbitrationLost (atBit .report 6)).fru.reportSlot = .sending 5 ∧
      (after .arbitrationLost (atBit .report 9)).fru.reportSlot = .sending 5 ∧
      (after .arbitrationLost (onTheWire .beacon)).ltu.slot = .offered := by decide +kernel

/-- The station sending with seven faults behind it. -/
def faulting : State := { atBit .mark 6 with lpi := { (atBit .mark 6).lpi with faultCount := 7 } }

/-- A fault at a dominant arbitration bit, within the frame, at its acceptance bit, and behind it; none at a recessive
arbitration bit. -/
theorem test_witness_TransmitFaultCountsAndMutes :
    faulting.lpi.transmission.map Transmission.candidate = some .mark ∧ faulting.lpi.faultCount ≤ 8 ∧
      faulting.lpi.state = .active ∧ (onTheWire .beacon).lpi.faultCount < 7 ∧ faulting.ltx none = false ∧ (onTheWire .beacon).ltx none = true ∧
      live.beaconFrame.ticks = 95 ∧ (atBit .beacon 92).lpi.transmission.map Transmission.bit = some 92 ∧
      (after (.transmitFault false) faulting).lpi.state = .muted ∧
      (after (.transmitFault false) (atBit .beacon 92)).lpi.decoder = .inside 92 true ∧
      (after (.transmitFault true) (atBit .beacon 93)).lpi.decoder = .endSlot 2 ∧
      (after (.transmitFault false) (atBit .beacon 94)).lpi.faultCount = 0 ∧
      (after (.transmitFault false) (atBit .beacon 93)).lpi.faultCount = 0 ∧
      (after (.transmitFault true) (atBit .report 93)).fru.reportSlot = .waiting 6 ∧
      (after (.transmitFault false) (onTheWire .beacon)).lpi.faultCount = 0 ∧
      (after (.transmitFault false) (atBit .beacon 0)).lpi.faultCount = 1 ∧
      (after (.transmitFault false) (atBit .beacon 6)).lpi.faultCount = 1 ∧
      (after (.transmitFault false) (atBit .beacon 9)).lpi.faultCount = 1 := by decide +kernel

theorem test_witness_OwnFrameAcceptedClears :
    (atBit .beacon 94).lpi.transmission.map Transmission.bit = some 94 ∧
      (atBit .beacon 95).lpi.transmission.map Transmission.candidate = some .beacon ∧
      (after .ownFrameAccepted (atBit .beacon 94)).ltu.slot = .sending ∧
      (after .ownFrameAccepted (atBit .beacon 95)).ltu.slot = .empty ∧
      (after .ownFrameAccepted (atBit .report 95)).fru.reportSlot = .waiting 6 := by decide +kernel

/-- The LPI's part of a tick: a frame that goes on, one that ends, a choice, and a HALTED station's report. -/
theorem test_witness_BareTick_wire :
    (halfway (atBit .beacon 94)).tick.lpi.transmission.map Transmission.bit = some 95 ∧
      (halfway (atBit .beacon 95)).tick.lpi.transmission = none ∧
      (halfway (atBit .beacon 95)).tick.ltu.slot = .empty ∧
      (halfway (atBit .beacon 95)).tick.lpi.decoder = .outside 1 ∧
      offering.lpi.transmission = none ∧ (halfway offering).tick.lpi.transmission.map Transmission.bit = some 1 ∧
      (halfway offering).tick.lpi.decoder = .inside 1 true ∧
      (halfway queueing).tick.lpi.transmission.map Transmission.candidate = some .mark ∧
      (halfway queueing).tick.mku.queue = queueing.mku.queue ∧
      haltedReporting.pending = [] ∧ haltedReporting.tick.fru.reportSlot = .sending 7 := by decide +kernel

/-- The station MUTED with accepted frames behind it. -/
def mutedRun (n : Nat) : State := { live with lpi := { live.lpi with state := .muted, acceptedRun := n } }

theorem test_witness_FramesCloseRejectedOrAccepted :
    (∀ i, (mutedRun 31).Heeds i) ∧ (mutedRun 30).lpi.acceptedRun + 1 < 32 ∧ 32 ≤ (mutedRun 31).lpi.acceptedRun + 1 ∧
      (after (.report 5#5 unassigned) (mutedRun 31)).lpi.state = .active ∧
      (after (.report 5#5 unassigned) (mutedRun 30)).lpi.acceptedRun = 31 ∧
      (after (.report 5#5 unassigned) (mutedRun 30)).lpi.frameStart = true ∧
      (after (.report 5#5 unassigned) (within (mutedRun 30) 120)).lpi.frameStart = false ∧
      (after (.frameRejected badFrame) (mutedRun 30)).lpi.frameStart = true ∧
      (after (.frameRejected badFrame) (within (mutedRun 30) 47)).lpi.frameStart = false ∧
      (after (.frameRejected badFrame) (within live 47)).fru.counters.rxRejects = 1 :=
  ⟨fun _ => ⟨rfl, by decide, Or.inr (Or.inl ⟨3, rfl⟩)⟩, by decide +kernel⟩

/-- The station reset, its decoder outside a frame. -/
def outsideReset : State :=
  { State.reset with
    lpi := { Lpi.reset with decoder := .outside 0 }, cfl := { Cfl.reset with read := .reading 0 } }

/-- The station reading its image with a run of recessive bits behind it. -/
def unsynchronisedAt (run : Nat) : State :=
  { outsideReset with lpi := { Lpi.reset with decoder := .unsynchronised run false } }

theorem test_witness_DecoderFollowsFrames :
    (unsynchronisedAt 138).heldInReset = false ∧ (unsynchronisedAt 138).lpi.transmission = none ∧
      live.lpi.decoder = .outside 3 ∧ live.lpi.transmission = none ∧ State.reset.heldInReset = true ∧
      (after .receiveDecoderOutsideFrame (unsynchronisedAt 0)).lpi.decoder = .outside 3 ∧
      (unsynchronisedAt 138).tick.lpi.decoder = .unsynchronised 139 false ∧
      (unsynchronisedAt 139).tick.lpi.decoder = .outside 3 ∧
      (after .startBitRead (unsynchronisedAt 138)).tick.lpi.decoder = .unsynchronised 0 false ∧
      (after .startBitRead (mutedRun 0)).lpi.frameStart = true ∧
      (after .startBitRead outsideReset).lpi.decoder = .inside 0 false := by decide +kernel

/-- The decoder's place one tick on, outside and within a frame and in an end slot. -/
theorem test_witness_DecoderFollowsFrames_ticks :
    (halfway live).tick.lpi.decoder = .outside 3 ∧ outsideReset.tick.lpi.decoder = .outside 1 ∧
      (halfway (within live 30)).tick.lpi.decoder = .inside 31 true ∧
      (halfway (within live 127)).tick.lpi.decoder = .inside 127 true ∧
      (halfway (inEndSlot live)).tick.lpi.decoder = .outside 0 ∧ (within live 30).tick.lpi.decoder = .inside 30 true ∧
      (within haltedStation 30).tick.lpi.decoder = .inside 31 true := by decide +kernel

/-- R147: the reject mark, at the acceptance bit of a malformed frame alone. -/
theorem test_witness_DecoderFollowsFrames_rejectMark :
    badFrame.malformed = true ∧ badFrame.ticks = 47 ∧ (within live 45).ltx (some badFrame) = false ∧
      (within live 44).ltx (some badFrame) = true ∧ (within live 46).ltx (some badFrame) = true ∧
      (within live 93).ltx (some live.beaconFrame) = true ∧ live.beaconFrame.ticks = 95 := by decide +kernel

theorem test_witness_FramesThatReachNoBlock :
    (∀ i, live.Heeds i) ∧ (∀ i, haltedStation.Heeds i) ∧
      (3#5 : Address) = live.cfl.address ∧ (5#5 : Address) ≠ live.cfl.address ∧ listening.ltu.sync = .listen ∧
      live.period ≤ (1000#16 : Half).toNat ∧ haltedStation.running = false ∧
      (within live 30).lpi.decoder = .inside 30 true ∧
      30 < (frameOf unassigned.cls 5#5 unassigned.payload).ticks ∧
      (after (.purge 3#5 255#8 0#16) live).fru.events.addressClash = true :=
  ⟨heeds_live, heeds_halted, by decide +kernel⟩

/-- R137: a frame command of each kind, before a frame of its length can close. -/
theorem test_frames_before_their_close :
    let early : List Instr :=
      [.beacon 5#5 5#32 104#16 1000#16, .mark 5#5 1#8 4#8 5#16 200#16, .clearFaults 5#5 3#8 0x1234#16,
       .purge 5#5 3#8 0x1234#16, .restart 5#5 3#8 0x1234#16 (startWith (memoryOf [])),
       .unknownOperation 5#5 3#8 0x1234#16 0#8, .retime 5#5 3#8 0x1234#16 9#8 77#24, .query 5#5 3#8 7#8,
       .report 5#5 unassigned, .frameRejected badFrame]
    (within live 30).reportOnWire = false ∧ early.all (fun i => after i (within live 30) = within live 30) = true ∧
      early.all (fun i => decide (after i (within live 120) ≠ within live 120)) = true := by decide +kernel

/-- Frames read back: one of each class that carries a command. -/
theorem test_witness_FramesReadBack :
    (Instr.purge 5#5 3#8 0x1234#16).wellFormed = true ∧
      decodeFrame (startWith (memoryOf [])) live.beaconFrame = some (.beacon 3#5 5#32 400#16 1000#16) ∧
      (frameOfCommand (.purge 5#5 3#8 0x1234#16)).bind (decodeFrame (startWith (memoryOf []))) =
        some (.purge 5#5 3#8 0x1234#16) ∧
      (frameOfCommand (.query 5#5 3#8 7#8)).bind (decodeFrame (startWith (memoryOf []))) = some (.query 5#5 3#8 7#8) ∧
      (frameOfCommand (.restart 5#5 3#8 0#16 (startWith (memoryOf [1#8])))).bind
        (decodeFrame (startWith (memoryOf [1#8]))) =
        some (.restart 5#5 3#8 0#16 (startWith (memoryOf [1#8]))) := by decide +kernel

/-- Both forms of the fields that a page may lack. -/
theorem test_witness_FramesReadBack_pages :
    live.ltu.lastSource = none ∧ live.asc.time = [] ∧ live.asc.free.head? = some 0 ∧ noSlot.asc.free = [] ∧
      aboutToFire.asc.time.map Action.due = [⟨5#32, 401⟩] ∧ live.functionOf 1 = .drive ∧ live.functionOf 0 ≠ .drive ∧
      live.reportPayload 0 = [0#8, 0x40#8, 0#8, 0#8, 0#8, 5#8, 1#8, 0x90#8, 1#8, 2#8, 0xFF#8, 0#8] := by
  decide +kernel

/-! ### Faults, reports and service requests -/

theorem test_witness_FaultLineFollowsTheFlags :
    State.reset.cfl.run = .configuring ∧ haltedStation.cfl.run = .halted ∧ live.cfl.run = .running ∧
      haltedStation.faultLine = true ∧ live.faultLine = false ∧
      { live with fru := { live.fru with mask := 0x0001#16, events := { live.fru.events with stray := true } } }.faultLine
        = true := by decide +kernel

/-- The station with another line tag. -/
def tagged (t : Half) : State := { live with srh := { lineTag := some t } }

theorem test_witness_TagCheckGuardsRequests :
    (∀ i, live.Heeds i) ∧ live.running = true ∧ (5#5 : Address) ≠ live.cfl.address ∧
      live.srh.lineTag = some 0x1234#16 ∧ (4#8 ≠ live.cfl.address.setWidth 8 ∧ (4#8 : Byte) ≠ 255#8) ∧
      (after (.purge 5#5 3#8 0x1235#16) live).fru.counters.refusedRequests = 1 ∧
      (after (.purge 5#5 3#8 0xFFFF#16) (tagged 0xFFFF#16)).fru.counters.refusedRequests = 1 ∧
      (tagged 0#16).srh.lineTag = some 0#16 ∧
      (after (.purge 5#5 3#8 0x1235#16) (tagged 0#16)).fru.counters.refusedRequests = 0 ∧
      (after (.purge 5#5 3#8 0x1234#16) live).fru.counters.refusedRequests = 0 :=
  ⟨heeds_live, by decide, by decide, by decide +kernel⟩

theorem test_witness_ClearFaultsClearsTheFlags :
    (∀ i, live.Heeds i) ∧ live.running = true ∧ (5#5 : Address) ≠ live.cfl.address ∧
      live.addressed 3#8 = true ∧ tagAccepted live.srh.lineTag 0x1234#16 = true ∧
      (after (.clearFaults 5#5 3#8 0x1234#16) (live.setFlag .stray)).fru.events.stray = false :=
  ⟨heeds_live, by decide, by decide, by decide +kernel⟩

theorem test_witness_PurgeEmptiesTheSchedules :
    (∀ i, holding.Heeds i) ∧ holding.SlotsPartitioned ∧ holding.ClaimsSound ∧ holding.addressed 3#8 = true ∧
      tagAccepted holding.srh.lineTag 0x1234#16 = true ∧
      (after (.purge 5#5 3#8 0x1234#16) holding).asc.free.length = 48 :=
  ⟨fun _ => ⟨rfl, by decide, Or.inr (Or.inl ⟨3, rfl⟩)⟩, slots_holding, claims_holding, by decide +kernel⟩

theorem test_witness_RestartBeginsANewStart :
    (∀ i, live.Heeds i) ∧ (∀ i, haltedStation.Heeds i) ∧ (5#5 : Address) ≠ haltedStation.cfl.address ∧ live.addressed 3#8 = true ∧
      tagAccepted live.srh.lineTag 0x1234#16 = true ∧
      live.cfl.run = .running ∧ haltedStation.cfl.run = .halted ∧ haltedStation.addressed 3#8 = true ∧
      (after (.restart 5#5 3#8 0x1234#16 { startWith (memoryOf []) with straps := 9#5 }) live).cfl.address = 9#5 ∧
      (after (.restart 5#5 3#8 0#16 (startWith (memoryOf []))) haltedStation).fru.events.restarted = true :=
  ⟨heeds_live, heeds_halted, by decide, by decide, by decide, by decide +kernel⟩

theorem test_witness_HaltedIgnoresAndUnknownRefused :
    (∀ i, live.Heeds i) ∧ (∀ i, haltedStation.Heeds i) ∧ live.running = true ∧ live.addressed 3#8 = true ∧
      tagAccepted live.srh.lineTag 0x1234#16 = true ∧
      haltedStation.cfl.run = .halted ∧ (5#5 : Address) ≠ haltedStation.cfl.address ∧
      (after (.unknownOperation 5#5 3#8 0x1234#16 0#8) live).fru.counters.refusedRequests = 1 ∧
      (after (.unknownOperation 5#5 3#8 0x1234#16 0#8) haltedStation).fru.counters.refusedRequests = 0 ∧
      haltedStation.addressed 4#8 = false ∧
      (after (.restart 5#5 4#8 0#16 (startWith (memoryOf []))) haltedStation).cfl.run = .halted ∧
      (after (.restart 5#5 4#8 0#16 (startWith (memoryOf []))) haltedStation).fru.counters.acceptedFrames = 1 :=
  ⟨heeds_live, heeds_halted, by decide, by decide, by decide, by decide +kernel⟩

theorem test_witness_QueryFillsTheReportSlot :
    (∀ i, live.Heeds i) ∧ (∀ i, reporting.Heeds i) ∧ (5#5 : Address) ≠ live.cfl.address ∧
      (7#8).toNat < 8 ∧ 8 ≤ (8#8).toNat ∧ live.addressed 3#8 = true ∧ live.addressed 4#8 = false ∧
      live.fru.reportSlot = .empty ∧ reporting.fru.reportSlot = .waiting 5 ∧
      (onTheWire .report).fru.reportSlot = .sending 5 ∧
      (after (.query 5#5 3#8 7#8) live).fru.reportSlot = .waiting 7 ∧
      (onTheWire .report).lpi.state ≠ .muted ∧
      (after (.query 5#5 3#8 7#8) (onTheWire .report)).fru.heldPage = some 7 ∧
      (after (.query 5#5 3#8 8#8) (onTheWire .report)).fru.heldPage = (onTheWire .report).fru.heldPage ∧
      (after (.query 5#5 4#8 7#8) (onTheWire .report)).fru.heldPage = (onTheWire .report).fru.heldPage ∧
      (after (.query 5#5 4#8 7#8) (onTheWire .report)).fru.counters.acceptedFrames = 1 :=
  ⟨heeds_live, fun _ => ⟨rfl, by decide, Or.inr (Or.inl ⟨3, rfl⟩)⟩, by decide, by decide +kernel⟩

/-! ### Invariants -/

/-- R29: the templates in use name DRIVE lines alone. -/
theorem drives_holding : holding.DriveLinesOnly ∧ live.DriveLinesOnly ∧ holding.functionOf 0 ≠ .drive := by
  unfold State.DriveLinesOnly
  decide +kernel

/-- A state with actions and claims that meets the premises of the statements about every step, and steps. -/
theorem test_witness_StepKeeps :
    holding.fru.counters.Bounded ∧ holding.SlotsPartitioned ∧ holding.ActionsSound ∧ holding.TimeSound ∧
      holding.HistorySound ∧ holding.QueueBounded ∧ step holding = .next holding.tick := by
  refine ⟨?_, slots_holding, ⟨claims_holding, ?_, ?_⟩, ⟨Or.inl rfl, ?_, ?_, ?_, ?_, ?_, ?_⟩, ⟨?_, trivial, ?_, ?_⟩, ?_, rfl⟩
  · intro c
    cases c <;> decide
  · unfold State.UnclaimedStopped
    decide +kernel
  · intro h
    exact absurd h (by decide)
  · intro _
    exact ⟨_, rfl, by decide, by decide, by decide, by decide, by decide, by decide⟩
  · intro h
    exact absurd rfl h
  · intro _
    decide
  · intro _
    decide
  · unfold State.HoldFits
    decide
  · unfold State.SlotFitsWire
    decide
  · decide
  · intro _
    rfl
  · intro h
    exact absurd h (by decide)
  · unfold State.QueueBounded
    decide

/-- Two TRAVEL actions, the tail at the wrap of the distance ahead. -/
def nearWrap : State :=
  { live with asc := { live.asc with
      travel := [{ slot := 0, due := 140#32, template := 0, next := 0, held := noLines },
                 { slot := 1, due := 0x80000063#32, template := 0, next := 0, held := noLines }] } }

/-- Due points in a total order. -/
def orderedRules : DomainRules Nat :=
  { isDue := fun d => Nat.ble d 5, atOrBefore := fun a b => Nat.ble a b, addGap := fun d gap => d + gap }

/-- An action of that order. -/
def actionAt (slot : Fin 48) (due : Nat) : Action Nat :=
  { slot := slot, due := due, template := 0, next := 0, held := noLines }

theorem test_witness_FilingGoesBehindEquals :
    (∀ x y : Nat, orderedRules.atOrBefore x y = true ∨ orderedRules.atOrBefore y x = true) ∧
      (∀ x y z : Nat, orderedRules.atOrBefore x y = true → orderedRules.atOrBefore y z = true →
        orderedRules.atOrBefore x z = true) ∧
      (fileAction orderedRules (actionAt 3 6) [actionAt 0 4, actionAt 1 6, actionAt 2 7]).map Action.slot =
        [0, 1, 3, 2] ∧
      nearWrap.asc.travel.map nearWrap.travelAhead = [40, 2147483647] ∧
      (nearWrap.countChange .backward).asc.travel.map Action.slot = [0] ∧
      (nearWrap.countChange .backward).asc.free.head? = some 1 := by
  refine ⟨fun x y => ?_, fun x y z h k => ?_, by decide, by decide, by decide +kernel, by decide +kernel⟩
  · simp only [orderedRules, Nat.ble_eq]
    exact Nat.le_total x y
  · simp only [orderedRules, Nat.ble_eq] at *
    exact Nat.le_trans h k

/-- The schedules of the holding station, in order, and a station with a record near its present point. -/
theorem test_witness_FilingGoesBehindEquals_step :
    holding.TimeInOrder ∧ holding.TravelInOrder ∧ holding.OneNearWrap ∧ nearWrap.TravelInOrder ∧
      nearWrap.OneNearWrap ∧ holding.NearPresent := by
  have hn : holding.asc.time = [_] := rfl
  have ht : holding.asc.travel = [_] := rfl
  have hr : ∀ n, (holding.line n).record = none := by decide +kernel
  refine ⟨⟨by rw [hn]; exact List.pairwise_singleton _ _, by rw [hn]; decide +kernel⟩,
    ⟨by rw [ht]; exact List.pairwise_singleton _ _, by rw [ht]; decide +kernel⟩, by rw [State.OneNearWrap, ht]; decide,
    ⟨by unfold nearWrap; decide +kernel, by unfold nearWrap; decide +kernel⟩,
    by unfold State.OneNearWrap nearWrap; decide +kernel, fun n r st h => ?_, by decide +kernel⟩
  rw [hr n] at h
  exact absurd h (by simp)

end Sys2Proof.Tests
end

section
/-! The beacons that line time does not adopt (R7, R15, R20): how a beacon reaches the LTU of a RUNNING
station, and one lemma for each branch of its test that leaves the instant as it is. -/

namespace Sys2Proof.Machine.State

variable {s : State} {source : Address} {cycle : Word} {phase period : Half} {target : Instant}

/-- R149: the beacon of another station, at its close in a RUNNING station that heeds it, goes to the LTU. -/
theorem exec_beacon_of_heeds (hh : s.Heeds (.beacon source cycle phase period)) (hr : s.running = true)
    (hs : source ≠ s.cfl.address) :
    exec (.beacon source cycle phase period) s = .next (s.accepted.takeBeacon source cycle phase period) :=
  calc exec (.beacon source cycle phase period) s
    _ = execBeacon source cycle phase period s := rfl
    _ = .next (s.accepted.takeBeacon source cycle phase period) := by
      rw [execBeacon, receiveFrame_heeds s hh, acceptFrame_other s _ hs, whenRunning_accepted, if_pos hr]

/-- R7, R15: in either sync state. -/
theorem takeBeacon_of_periodMismatch (h : period.toNat ≠ s.period ∨ period.toNat ≤ phase.toNat) :
    s.takeBeacon source cycle phase period = s.setFlag .periodMismatch := by
  rw [takeBeacon, if_pos h]

/-- R15: a LOCKED station tests a beacon of its own period against the target instant of R14. -/
theorem takeBeacon_of_locked (hl : s.ltu.sync = .locked) (hp : period.toNat = s.period)
    (hf : phase.toNat < period.toNat) :
    s.takeBeacon source cycle phase period = s.testBeacon source (s.beaconTarget cycle phase) := by
  have hmatch : ¬ (period.toNat ≠ s.period ∨ period.toNat ≤ phase.toNat) := by omega
  rw [takeBeacon, if_neg hmatch, hl]

/-- R15, R20: a target more than W behind is a lag stray. -/
theorem testBeacon_of_lag (h : Instant.distance s.period s.now target < -(s.window : Int)) :
    s.testBeacon source target = s.strayBeacon := by
  have hbehind : ¬ 0 < Instant.distance s.period s.now target := by omega
  have hforward : ¬ (0 < Instant.distance s.period s.now target ∧
      Instant.distance s.period s.now target ≤ s.window) := by omega
  have hbackward : ¬ (-(s.window : Int) ≤ Instant.distance s.period s.now target ∧
      Instant.distance s.period s.now target ≤ 0) := by omega
  simp only [testBeacon, if_neg hforward, if_neg hbackward, if_neg hbehind]

/-- R15, R20: a target more than W ahead is a lead stray until the streak has reached STRAY_LIMIT. -/
theorem testBeacon_of_lead (h : (s.window : Int) < Instant.distance s.period s.now target)
    (hk : s.ltu.streak < s.strayLimit) : s.testBeacon source target = s.leadStray := by
  have hahead : 0 < Instant.distance s.period s.now target := by omega
  have hforward : ¬ (0 < Instant.distance s.period s.now target ∧
      Instant.distance s.period s.now target ≤ s.window) := by omega
  have hbackward : ¬ (-(s.window : Int) ≤ Instant.distance s.period s.now target ∧
      Instant.distance s.period s.now target ≤ 0) := by omega
  simp only [testBeacon, if_neg hforward, if_neg hbackward, if_pos hahead, if_pos hk]

@[simp] theorem accepted_beaconTarget : s.accepted.beaconTarget cycle phase = s.beaconTarget cycle phase := by
  simp [beaconTarget]

/-- R15: a LOCKED RUNNING station that heeds a beacon of its own period tests it in the state that has accepted the
frame. -/
theorem exec_beacon_of_locked (hh : s.Heeds (.beacon source cycle phase period)) (hr : s.running = true)
    (hs : source ≠ s.cfl.address) (hl : s.ltu.sync = .locked) (hp : period.toNat = s.period)
    (hf : phase.toNat < period.toNat) :
    exec (.beacon source cycle phase period) s =
      .next (s.accepted.testBeacon source (s.beaconTarget cycle phase)) := by
  rw [exec_beacon_of_heeds hh hr hs, takeBeacon_of_locked (by simpa using hl) (by simpa using hp) hf,
    accepted_beaconTarget]

/-- R20: a lead stray sets its indicator and leaves the rest of the LTU as it was. -/
theorem leadStray_ltu (s : State) : s.leadStray.ltu = { s.ltu with leadStray := true } := rfl

/-- R20: a lead stray sets STRAY and counts as every stray does. -/
theorem leadStray_fru (s : State) : s.leadStray.fru = ((s.setFlag .stray).count .strays).fru := rfl

/-- Settles O15: each beacon reaches the LTU behind its line acceptance, and the branch of R7 and R15 that takes it
sets a flag, counts a stray and raises at most the lead stray indicator. -/
theorem beaconNotAdopted : Obligations.BeaconNotAdopted := by
  refine ⟨fun s source cycle phase period hh hr hs hbad => ?mismatch,
    fun s source cycle phase period hh hr hs hl hp hf => ⟨fun hlag => ?lag, fun hlead hk => ?lead⟩⟩
  case mismatch =>
    rw [exec_beacon_of_heeds hh hr hs, takeBeacon_of_periodMismatch (by simpa using hbad)]
  case lag =>
    have htest : s.accepted.testBeacon source (s.beaconTarget cycle phase) = s.accepted.strayBeacon :=
      testBeacon_of_lag (by simpa [beaconTarget, Config.beaconTicks] using hlag)
    rw [exec_beacon_of_locked hh hr hs hl hp hf, htest, strayBeacon]
  case lead =>
    have htest : s.accepted.testBeacon source (s.beaconTarget cycle phase) = s.accepted.leadStray :=
      testBeacon_of_lead (by simpa [beaconTarget, Config.beaconTicks] using hlead) (by simpa using hk)
    refine ⟨s.accepted.leadStray, ?_, ?_, leadStray_fru _, ?_⟩
    · rw [exec_beacon_of_locked hh hr hs hl hp hf, htest]
    · rw [leadStray_ltu, accepted_ltu]
    · simp

end Sys2Proof.Machine.State
end

section
/-! The steps of the MKU that know a mark's number and cycle (R55, R56): the sequence test, one lemma for each row of
its table, and the capture cycle rebuilt from its low 16 bits. -/

namespace Sys2Proof.Machine

/-! ### The sequence gap (R55) -/

/-- R55: the gap is (s - m - 1) modulo 256, here without a negative intermediate value. -/
theorem sequenceGap_eq_mod (m seq : Byte) : sequenceGap m seq = (seq.toNat + 255 - m.toNat) % 256 := by
  have hm : m.toNat < 256 := m.isLt
  simp only [sequenceGap, BitVec.toNat_sub, BitVec.toNat_ofNat]
  omega

/-! ### The rebuilt cycle (R56) -/

/-- R56: the difference of the carried bits from the low bits of the receiver's own cycle, modulo 65,536. -/
theorem rebuildCycle_sub_own (own : Word) (carried : Half) :
    rebuildCycle own carried - own = (carried - own.setWidth 16).signExtend 32 := by
  rw [rebuildCycle, BitVec.add_comm, BitVec.add_sub_cancel]

/-- A value that is sign extended keeps its low bits. -/
theorem setWidth_signExtend_self (d : Half) : (d.signExtend 32 : Word).setWidth 16 = d := by
  ext k hk
  rw [BitVec.getElem_setWidth, BitVec.getLsbD_signExtend, if_pos hk, BitVec.getLsbD_eq_getElem hk]
  simp only [Bool.and_eq_right_iff_imp, decide_eq_true_eq]
  omega

/-- R56: the rebuilt cycle has the carried low 16 bits. -/
theorem rebuildCycle_setWidth (own : Word) (carried : Half) : (rebuildCycle own carried).setWidth 16 = carried := by
  rw [rebuildCycle, BitVec.setWidth_add _ _ (by decide), setWidth_signExtend_self, BitVec.add_comm,
    BitVec.sub_add_cancel]

/-- R56: the distance of the rebuilt cycle from the receiver's own is the 16-bit difference read with its sign. -/
theorem rebuildCycle_sub_own_toInt (own : Word) (carried : Half) :
    (rebuildCycle own carried - own).toInt = (carried - own.setWidth 16).toInt := by
  rw [rebuildCycle_sub_own, BitVec.toInt_signExtend_of_le (by decide)]

namespace State

variable {s : State} {i : Fin 64} {seq m : Byte}

/-! ### The sequence test (R55) -/

/-- R55: the row of an absent last-seen sequence. -/
theorem sequenceTest_of_absent (h : (s.entry i).lastSeen = none) :
    s.sequenceTest i seq = some (s.sawSequence i seq) := by
  rw [sequenceTest, h]

/-- R55: the row of a duplicate. -/
theorem sequenceTest_of_duplicate (h : (s.entry i).lastSeen = some seq) : s.sequenceTest i seq = none := by
  simp only [sequenceTest, h, if_true]

/-- R55: the row of the next number in order. -/
theorem sequenceTest_of_next (h : (s.entry i).lastSeen = some m) (hne : m ≠ seq) (hgap : sequenceGap m seq = 0) :
    s.sequenceTest i seq = some (s.sawSequence i seq) := by
  simp only [sequenceTest, h, if_neg hne, if_pos hgap]

/-- R55: the row of a gap. -/
theorem sequenceTest_of_gap (h : (s.entry i).lastSeen = some m) (hne : m ≠ seq) (hgap : sequenceGap m seq ≠ 0) :
    s.sequenceTest i seq =
      some (((s.sawSequence i seq).setFlag .markGap).countBy .lostMarks (sequenceGap m seq)) := by
  simp only [sequenceTest, h, if_neg hne, if_neg hgap]

@[simp] theorem entry_sawSequence_self : (s.sawSequence i seq).entry i = { s.entry i with lastSeen := some seq } :=
  entry_mapEntry_self s i _

theorem entry_sawSequence_ne {j : Fin 64} (h : j ≠ i) : (s.sawSequence i seq).entry j = s.entry j :=
  entry_mapEntry_ne s _ h

/-! ### Marks on their way through the steps (R52) -/

variable {source : Address} {channel : Fin 8}

/-- R52, R55: a mark that fails the sequence test counts as a duplicate and goes no further. -/
theorem processMark_of_duplicate {capture : Instant} {position : State → Option Word}
    (hn : s.Names source channel.val i) (hd : s.sequenceTest i seq = none) :
    s.processMark source channel seq capture position = s.count .duplicates := by
  have hl : s.lookup source channel = some i := (s.lookup_iff source channel i).mpr hn
  simp only [processMark, hl, hd]

/-- R52, R56: a received mark that passes step 1 goes through the shared steps with its rebuilt capture instant. -/
theorem receiveMark_of_locked {cycleLow phase : Half} (hl : s.locked = true) (hp : phase.toNat < s.period) :
    s.receiveMark source channel seq cycleLow phase =
      s.processMark source channel seq { cycle := rebuildCycle s.now.cycle cycleLow, phase := phase.toNat }
        fun u => u.positionAt { cycle := rebuildCycle s.now.cycle cycleLow, phase := phase.toNat } :=
  if_pos ⟨hl, hp⟩

end State

/-! ### The statements -/

/-- Settles O21, row by row of the table of R55. -/
theorem sequenceTestTable : Obligations.SequenceTestTable := by
  intro s i seq
  refine ⟨State.sequenceTest_of_absent, fun hsame => ?duplicate, fun m hseen hne hzero => ?next,
    fun m hseen hne hpos => ?gap, ?written, fun j => State.entry_sawSequence_ne⟩
  case duplicate =>
    have hnone : s.sequenceTest i seq = none := State.sequenceTest_of_duplicate hsame
    exact ⟨hnone, fun source channel capture position hn => State.processMark_of_duplicate hn hnone⟩
  case next =>
    exact State.sequenceTest_of_next hseen hne ((sequenceGap_eq_mod m seq).trans hzero)
  case gap =>
    rw [← sequenceGap_eq_mod] at hpos ⊢
    rw [State.sequenceTest_of_gap hseen hne hpos.ne']
    rfl
  case written =>
    rw [State.entry_sawSequence_self]

/-- Settles O23: the carried bits come back because the low bits of the own cycle cancel, and the range is that of a
signed 16-bit difference. -/
theorem rebuiltCycleIsNearest : Obligations.RebuiltCycleIsNearest := by
  refine ⟨fun own carried => ⟨rebuildCycle_setWidth own carried, ?lower, ?upper⟩,
    fun s source channel seq cycleLow phase hl hp => State.receiveMark_of_locked hl hp⟩
  case lower =>
    rw [rebuildCycle_sub_own_toInt]
    exact BitVec.le_toInt _
  case upper =>
    rw [rebuildCycle_sub_own_toInt]
    exact Int.le_of_lt_add_one BitVec.toInt_lt

end Sys2Proof.Machine
end

section
/-! A schedule request that finds the free stack empty (R72): one lemma for each domain, behind the test of R71. -/

namespace Sys2Proof.Machine.State

variable {s : State} {template : Fin 16}

/-- R72: a request of the time domain that R71 lets through and the free stack cannot serve. -/
theorem admitTime_of_noSlot {due : Instant} (hfree : s.asc.free = []) (h : s.timeLateness due ≤ s.timeLateLimit) :
    s.admitTime due template = s.refuseNoSlot := by
  rw [admitTime, if_neg (Int.not_lt.mpr h), hfree]

/-- R72: a request of the travel domain that R71 lets through and the free stack cannot serve. -/
theorem admitTravel_of_noSlot {due : Word} (hfree : s.asc.free = []) (h : s.travelLateness due ≤ s.travelLateLimit) :
    s.admitTravel due template = s.refuseNoSlot := by
  rw [admitTravel, if_neg (Int.not_lt.mpr h), hfree]

/-- Settles O29: in both domains the request is the refusal of R72, which touches the FRU alone and so leaves the
schedules and the free stack as they are. -/
theorem noSlotRefusesTheRequest : Obligations.NoSlotRefusesTheRequest := by
  refine fun s template hfree => ⟨fun due hlate => ?time, fun due hlate => ?travel⟩
  case time =>
    have hrefused : s.admitTime due template = s.refuseNoSlot := admitTime_of_noSlot hfree hlate
    exact ⟨hrefused, by rw [hrefused, refuseNoSlot_asc]⟩
  case travel =>
    have hrefused : s.admitTravel due template = s.refuseNoSlot := admitTravel_of_noSlot hfree hlate
    exact ⟨hrefused, by rw [hrefused, refuseNoSlot_asc]⟩

end Sys2Proof.Machine.State
end

section
/-! The FAULT line (R160 to R162): the mask bit of each event flag, the FAULT line in each run state, and what
CLEAR_FAULTS (R174) leaves of it. -/

namespace Sys2Proof.Machine

variable {f : EventFlag}

/-! ### The event flags under the mask (R161, R192) -/

/-- R192: the number of an event flag's bit, in the flags and in the mask. -/
def EventFlag.maskBit (f : EventFlag) : Nat := EventFlag.ordered.idxOf f

/-- R192: the mask bits are those of the event flags, in their order, and one for each condition flag. -/
theorem range_eq_maskBits : List.range 16 = EventFlag.ordered.map EventFlag.maskBit ++ [14, 15] := by decide

@[simp] theorem EventFlags.clear_has : EventFlags.clear.has f = false := by cases f <;> rfl

namespace State

variable {s : State} {source : Address} {target : Byte} {tag : Half}

/-- R192: the flag at an event flag's bit is that event flag. -/
@[simp] theorem flagBits_maskBit : s.flagBits.getD f.maskBit false = s.fru.events.has f := by cases f <;> rfl

/-- R161: the fourteen event flags each under its own mask bit, and the two condition flags under bits 14 and 15. -/
theorem flagUnderMask_iff : s.flagUnderMask = true ↔
    (∃ f ∈ EventFlag.ordered, s.fru.events.has f = true ∧ s.fru.mask.getLsbD f.maskBit = true) ∨
      (s.notLocked = true ∧ s.fru.mask.getLsbD 14 = true) ∨ (s.muted = true ∧ s.fru.mask.getLsbD 15 = true) := by
  have hnotLocked : s.flagBits.getD 14 false = s.notLocked := rfl
  have hmuted : s.flagBits.getD 15 false = s.muted := rfl
  simp only [flagUnderMask, range_eq_maskBits, List.any_append, List.any_map, List.any_cons, List.any_nil,
    Function.comp_apply, flagBits_maskBit, hnotLocked, hmuted, Bool.or_false, Bool.or_eq_true, Bool.and_eq_true,
    List.any_eq_true]

/-! ### The condition flags (R160) -/

/-- R160: in RUNNING the station is not locked in exactly the sync state LISTEN. -/
theorem notLocked_iff_of_running (h : s.cfl.run = .running) : s.notLocked = true ↔ s.ltu.sync = .listen := by
  cases hsync : s.ltu.sync <;> simp [notLocked, locked, running, h, hsync]

/-- R150, R160. -/
theorem muted_iff : s.muted = true ↔ s.lpi.state = .muted := beq_iff_eq

/-! ### The FAULT line in each run state (R161, R162) -/

theorem faultLine_of_configuring (h : s.cfl.run = .configuring) : s.faultLine = false := by rw [faultLine, h]

theorem faultLine_of_halted (h : s.cfl.run = .halted) : s.faultLine = true := by rw [faultLine, h]

theorem faultLine_of_running (h : s.cfl.run = .running) : s.faultLine = s.flagUnderMask := by rw [faultLine, h]

/-! ### CLEAR_FAULTS (R174) -/

@[simp] theorem clearEvents_has : s.clearEvents.fru.events.has f = false := EventFlags.clear_has

@[simp] theorem clearEvents_mask : s.clearEvents.fru.mask = s.fru.mask := rfl

@[simp] theorem accepted_mask : s.accepted.fru.mask = s.fru.mask := by rw [accepted_fru]; rfl

/-- R172: a request that is addressed here and passes the tag check is taken. -/
theorem takeRequest_of_accepted {act : State → State} (ht : s.addressed target = true)
    (hk : tagAccepted s.srh.lineTag tag = true) : s.takeRequest target tag act = act s := by
  rw [takeRequest, if_pos ht, if_pos hk]

/-- R173, R174: an accepted CLEAR_FAULTS clears the event flags in the state that has accepted its frame. -/
theorem exec_clearFaults_of_accepted (hh : s.Heeds (.clearFaults source target tag)) (hr : s.running = true)
    (hs : source ≠ s.cfl.address) (ht : s.addressed target = true) (hk : tagAccepted s.srh.lineTag tag = true) :
    exec (.clearFaults source target tag) s = .next s.accepted.clearEvents :=
  calc exec (.clearFaults source target tag) s
    _ = execClearFaults source target tag s := rfl
    _ = .next (s.accepted.takeRequest target tag clearEvents) := by
      rw [execClearFaults, receiveFrame_heeds s hh, acceptFrame_other s _ hs, whenRunning_accepted, if_pos hr]
    _ = .next s.accepted.clearEvents := by rw [takeRequest_of_accepted (by simpa using ht) (by simpa using hk)]

/-- R161, R174: with the event flags clear, the condition flags alone drive the FAULT line of a RUNNING station. -/
theorem faultLine_clearEvents_iff (h : s.cfl.run = .running) : s.clearEvents.faultLine = true ↔
    (s.clearEvents.notLocked = true ∧ s.fru.mask.getLsbD 14 = true) ∨
      (s.clearEvents.muted = true ∧ s.fru.mask.getLsbD 15 = true) := by
  have hrun : s.clearEvents.cfl.run = .running := h
  rw [faultLine_of_running hrun, flagUnderMask_iff]
  simp only [clearEvents_has, clearEvents_mask, Bool.false_eq_true, false_and, and_false, exists_false, false_or]

end State

/-! ### The statements -/

/-- Settles O48, one run state after another; in RUNNING the flags are taken in the order of R192. -/
theorem faultLineFollowsTheFlags : Obligations.FaultLineFollowsTheFlags := by
  refine fun s => ⟨State.faultLine_of_configuring, State.faultLine_of_halted, fun hrun => ?running⟩
  rw [State.faultLine_of_running hrun, State.flagUnderMask_iff, State.notLocked_iff_of_running hrun, State.muted_iff]
  simp only [EventFlag.ordered, List.exists_mem_cons_iff, List.not_mem_nil, false_and, exists_false, or_false, or_assoc]
  rfl

/-- Settles O50: the accepted request leaves the event flags clear and touches nothing else, so the FAULT line is that
of the condition flags. -/
theorem clearFaultsClearsTheFlags : Obligations.ClearFaultsClearsTheFlags := by
  intro s source target tag hh hr hs ht hk
  have hrun : s.accepted.cfl.run = .running := by simpa [State.running] using hr
  refine ⟨s.accepted.clearEvents, State.exec_clearFaults_of_accepted hh hr hs ht hk, fun f => State.clearEvents_has,
    rfl, ?faultLine⟩
  rw [State.faultLine_clearEvents_iff hrun, State.accepted_mask]

end Sys2Proof.Machine
end

section
/-! The check of code 5 (R186): what the fields of the station record hold, in terms of their bytes, and the check in
terms of those fields. -/

namespace Sys2Proof

/-- R190: a two-byte field holds its high byte first. -/
theorem half16At_toNat (bytes : List Byte) (i : Nat) :
    (half16At bytes i).toNat = 256 * (byteAt bytes i).toNat + (byteAt bytes (i + 1)).toNat := by
  have hlow : (byteAt bytes (i + 1)).toNat < 2 ^ 8 := (byteAt bytes (i + 1)).isLt
  rw [half16At, BitVec.toNat_append, ← Nat.shiftLeft_add_eq_or_of_lt hlow, Nat.shiftLeft_eq, Nat.mul_comm]

namespace Machine.Image

variable {img : List Byte}

/-- R186: the codes of the travel mode are those of NONE, PULSE and QUAD. -/
theorem travelMode_isSome_iff : (travelMode img).isSome = true ↔
    (byteAt img 20).toNat = 0 ∨ (byteAt img 20).toNat = 1 ∨ (byteAt img 20).toNat = 2 := by
  unfold travelMode
  split
  case h_1 hnone => simp [hnone]
  case h_2 hpulse => simp [hpulse]
  case h_3 hquad => simp [hquad]
  case h_4 hother0 hother1 hother2 => simpa using ⟨hother0, hother1, hother2⟩

/-- R186: P and JOIN_WAIT are bounded from above by the width of their fields alone. -/
theorem period_le : (timeParams img).period ≤ 65535 := Nat.le_of_lt_succ (half16At img 8).isLt

theorem joinWait_le : (timeParams img).joinWait ≤ 255 := Nat.le_of_lt_succ (byteAt img 12).isLt

/-- R186: the check of code 5, field by field. -/
theorem parametersInRange_iff : parametersInRange img = true ↔
    (1000 ≤ (timeParams img).period ∧ (timeParams img).period ≤ 65535) ∧
      (16 ≤ (timeParams img).window ∧ (timeParams img).window ≤ (timeParams img).period / 4) ∧
      (2 ≤ (timeParams img).joinWait ∧ (timeParams img).joinWait ≤ 255) ∧
      (1 ≤ (timeParams img).strayLimit ∧ (timeParams img).strayLimit ≤ 15) ∧ (travelMode img).isSome = true := by
  simp only [parametersInRange, Bool.and_eq_true, decide_eq_true_eq, period_le, joinWait_le, and_true, and_assoc]

/-- Settles O8: the check field by field, and then each field by its bytes. -/
theorem parameterRanges : Obligations.ParameterRanges := by
  intro img b p w
  have hperiod : (timeParams img).period = p := half16At_toNat img 8
  have hwindow : (timeParams img).window = w := half16At_toNat img 10
  have hjoinWait : (timeParams img).joinWait = b 12 := rfl
  have hstrayLimit : (timeParams img).strayLimit = b 13 := rfl
  rw [parametersInRange_iff, travelMode_isSome_iff, hperiod, hwindow, hjoinWait, hstrayLimit]

end Machine.Image

end Sys2Proof
end

section
/-! What a step of the station can do, said once: a step is a run of moves that leave the line instant, the sync state
and the run state as they are, among them at most two count changes, and behind them at most one leap, which changes
one of those three. What every move and every leap keeps, every step keeps. -/

namespace Sys2Proof.Machine

/-! ### Moves and leaps -/

/-- The LPI may send in RUNNING: the two transmit states of R150 between which it goes there. -/
def TransmitState.up (x : TransmitState) : Prop := x = .active ∨ x = .muted

/-- The count changes that an accepted edge on line `n` can make: only L6 and L7 count (R106, R107). -/
def edgeCost (n : LineId) : Nat := if n = 6 ∨ n = 7 then 1 else 0

/-- `Move k s t`: from `s` the station goes to `t` without a change of line instant, sync state or run state, and with
at most `k` changes of the travel count. -/
inductive Move : Nat → State → State → Prop where
  | queue (s : State) (p : List Instr) : Move 0 s { s with pending := p }
  | flags (s : State) (e : EventFlags) : Move 0 s { s with fru := { s.fru with events := e } }
  | count (s : State) (c : CounterName) (k : Nat) : Move 0 s (s.countBy c k)
  | report (s : State) (slot : ReportSlot) (held : Option (Fin 8)) :
      Move 0 s { s with fru := { s.fru with reportSlot := slot, heldPage := held } }
  /-- The LPI goes on with the same candidate on the wire; in RUNNING it may mute or end a mute. -/
  | wire (s : State) (l : Lpi)
      (hc : l.transmission.map Transmission.candidate = s.lpi.transmission.map Transmission.candidate)
      (hs : l.state = s.lpi.state ∨ (s.lpi.state.up ∧ l.state.up)) : Move 0 s { s with lpi := l }
  /-- An attempt begins; the beacon's is of an offered one. -/
  | sends (s : State) (l : Lpi) (x : Transmission) (slot : BeaconSlot) (hn : s.lpi.transmission = none)
      (hx : l.transmission = some x) (hs : l.state = s.lpi.state)
      (hslot : (x.candidate = .beacon ∧ s.ltu.slot = .offered ∧ slot = .sending) ∨
        (x.candidate ≠ .beacon ∧ slot = s.ltu.slot)) :
      Move 0 s { s with lpi := l, ltu := { s.ltu with slot := slot } }
  /-- An attempt ends; the beacon's leaves its slot OFFERED or EMPTY. -/
  | ends (s : State) (l : Lpi) (x : Transmission) (slot : BeaconSlot) (hx : s.lpi.transmission = some x)
      (hn : l.transmission = none) (hs : l.state = s.lpi.state)
      (hslot : (x.candidate = .beacon ∧ slot ≠ .sending) ∨ (x.candidate ≠ .beacon ∧ slot = s.ltu.slot)) :
      Move 0 s { s with lpi := l, ltu := { s.ltu with slot := slot } }
  | headSent (s : State) : Move 0 s { s with mku := { s.mku with queue := s.mku.queue.drop 1 } }
  | retime (s : State) (i : Fin 64) (delay : BitVec 24) :
      Move 0 s (s.mapEntry i fun e => { e with shadow := some delay })
  | cancelAll (s : State) : Move 0 s s.cancelAll
  | onTimeExpiry (s : State) (n : LineId) : Move 0 s (s.expireOnTime n)
  | countdown (s : State) (n : LineId) (r : Nat) (h : (s.drive n).countdown = some r) :
      Move 0 s (s.mapDrive n fun d => { d with countdown := some (r - 1) })
  | uncount (s : State) :
      Move 0 s { s with dcu := { s.dcu with lines := s.dcu.lines.map fun d => { d with counted := false } } }
  | ticked (s : State) (b : Bool) (hr : s.running = true) : Move 0 s (s.mapLtu fun l => { l with ticked := b })
  /-- The lines change, no setting among them, and no record comes up with another stamp. -/
  | lines (s : State) (l : Llu) (h : ∀ n, (l.lines.get n).settings = (s.line n).settings ∧
      ∀ r, (l.lines.get n).record = some r → ∃ q, (s.line n).record = some q ∧ r.stamp = q.stamp) :
      Move 0 s { s with llu := l }
  | sight (s : State) (n : LineId) :
      Move 0 s (s.mapLine n fun l => { l with record := some (s.firstSightRecord n) })
  | edge (s : State) (n : LineId) (r : FilterRecord)
      (h : (s.line n).record = some r ∨ r = s.firstSightRecord n) : Move (edgeCost n) s (s.acceptEdge n r)
  | mark (s : State) (source : Address) (channel : Fin 8) (seq : Byte) (cycleLow phase : Half) :
      Move 0 s (s.receiveMark source channel seq cycleLow phase)
  | loader (s : State) (c : Cfl) (h : c.run = s.cfl.run) : Move 0 s { s with cfl := c }

/-- A run of moves, with at most `k` changes of the travel count. -/
inductive Moves : Nat → State → State → Prop where
  | refl (k : Nat) (s : State) : Moves k s s
  | tail {j k : Nat} {s t u : State} (h : Moves j s t) (m : Move k t u) : Moves (j + k) s u

/-- `Leap c s t`: in the step of the command `c`, or of none, the line instant, the sync state or the run state
changes. -/
inductive Leap : Option Instr → State → State → Prop where
  | pinReset (s : State) : Leap (some .pinReset) s { State.reset with pending := s.pending }
  | restart (s : State) (source : Address) (target : Byte) (tag : Half) (start : StartReads) :
      Leap (some (.restart source target tag start)) s (s.restartStation start)
  | halt (c : Option Instr) (s : State) (code : Nat) (h : s.cfl.run = .configuring) : Leap c s (s.enterHalted code)
  | run (c : Option Instr) (s : State) (img : List Byte) (pins : BitVec 8) (h : s.cfl.run = .configuring)
      (hc : Image.haltCode img = 0) : Leap c s (s.enterRunning img pins)
  | wrap (c : Option Instr) (s : State) (h : s.listening = true) : Leap c s s.wrapInListen
  | listen (c : Option Instr) (s : State) (h : s.listening = true) (hp : s.phaseEnds = false) :
      Leap c s s.listenAdvance
  | selfStart (c : Option Instr) (s : State) (h : s.listening = true) : Leap c s s.startSelf
  | hold (c : Option Instr) (s : State) (h : s.locked = true) (hh : 0 < s.ltu.hold) : Leap c s s.holdTick
  | advance (c : Option Instr) (s : State) (h : s.locked = true) (hh : s.ltu.hold = 0) : Leap c s s.advance
  | join (c : Option Instr) (s : State) (source : Address) (target : Instant) (h : s.listening = true)
      (ht : target.phase < s.period) : Leap c s (s.adoptInListen source target)
  | forward (c : Option Instr) (s : State) (source : Address) (target : Instant) (h : s.locked = true)
      (ht : target.phase < s.period) (h0 : 0 < Instant.distance s.period s.now target)
      (hw : Instant.distance s.period s.now target ≤ s.window) : Leap c s (s.adoptForward source target)
  | backward (c : Option Instr) (s : State) (source : Address) (k : Nat) (h : s.locked = true) (hk : k ≤ s.window)
      (hn : s.lpi.transmission = none) : Leap c s (s.adoptBackward source k)
  | lead (c : Option Instr) (s : State) (h : s.locked = true) (hk : s.ltu.streak < s.strayLimit) :
      Leap c s (s.mapLtu fun l => { l with leadStray := true })
  | merge (c : Option Instr) (s : State) (source : Address) (target : Instant) (k : Nat) (h : s.locked = true)
      (ht : target.phase < s.period) (hd : Instant.distance s.period s.now target = k) (hw : s.window < k) :
      Leap c s (s.mergeTo source target k)

/-- A run of moves with at most two count changes, and behind it at most one leap. -/
def Goes (c : Option Instr) (s t : State) : Prop := ∃ u, Moves 2 s u ∧ (t = u ∨ Leap c u t)

variable {s t u : State} {j k : Nat} {c : Option Instr}

/-! ### Runs of moves -/

theorem Moves.mono (h : Moves j s t) : ∀ {k}, j ≤ k → Moves k s t := by
  induction h with
  | refl => exact fun _ => .refl _ _
  | @tail j k' _ _ _ _ m ih =>
    intro k hk
    have := (ih (show j ≤ k - k' by omega)).tail m
    rwa [Nat.sub_add_cancel (by omega)] at this

theorem Move.moves (m : Move k s t) : Moves k s t := by simpa using (Moves.refl 0 s).tail m

theorem Moves.trans (h : Moves j s t) (g : Moves k t u) : Moves (j + k) s u := by
  induction g with
  | refl k => exact h.mono (Nat.le_add_right _ _)
  | tail _ m ih => rw [← Nat.add_assoc]; exact (ih h).tail m

/-- A move that counts nothing, behind a run. -/
theorem Moves.then (h : Moves k s t) (m : Move 0 t u) : Moves k s u := h.tail m

/-- What every move keeps, a run of moves keeps. -/
theorem Moves.keeps {P : State → Prop} (hm : ∀ k s t, Move k s t → P s → P t) (h : Moves k s t) (hs : P s) : P t := by
  induction h with
  | refl => exact hs
  | tail _ m ih => exact hm _ _ _ m (ih hs)

/-- A part that is taken line by line. -/
theorem foldl_moves {f : State → LineId → State} {cost : LineId → Nat} (h : ∀ s n, Moves (cost n) s (f s n))
    (l : List LineId) (s : State) : Moves (l.map cost).sum s (l.foldl f s) := by
  induction l generalizing s with
  | nil => exact .refl _ _
  | cons n l ih => exact (h s n).trans (ih (f s n))

theorem Moves.goes (h : Moves 2 s t) : Goes c s t := ⟨t, h, .inl rfl⟩

theorem Move.goes (m : Move 0 s t) : Goes c s t := (m.moves.mono (by omega)).goes

theorem Goes.refl (s : State) : Goes c s s := (Moves.refl 2 s).goes

theorem Leap.goes (h : Leap c s t) : Goes c s t := ⟨s, .refl 2 s, .inr h⟩

/-- Moves that count nothing come ahead of what goes on. -/
theorem Goes.after (h : Moves 0 s t) (g : Goes c t u) : Goes c s u := by
  obtain ⟨v, hv, hu⟩ := g
  exact ⟨v, by simpa using h.trans hv, hu⟩

/-- What every move and every leap keeps, whatever goes on keeps. -/
theorem Goes.keeps {P : State → Prop} (hm : ∀ k s t, Move k s t → P s → P t) (hl : ∀ s t, Leap c s t → P s → P t)
    (h : Goes c s t) (hs : P s) : P t := by
  obtain ⟨u, hu, rfl | hut⟩ := h
  · exact hu.keeps hm hs
  · exact hl _ _ hut (hu.keeps hm hs)

end Sys2Proof.Machine
end

section
/-! Every step goes by moves and leaps: one lemma for each operation, in the order of the blocks, and one for the step. -/

namespace Sys2Proof.Machine

variable {s t u : State} {c : Option Instr}

namespace State

/-! ### Flags, counts and the LPI -/

theorem setFlag_move (s : State) (f : EventFlag) : Move 0 s (s.setFlag f) := .flags s _

theorem count_move (s : State) (name : CounterName) : Move 0 s (s.count name) := .count s name 1

theorem setDecoder_move (s : State) (d : Decoder) : Move 0 s (s.setDecoder d) := .wire s _ rfl (.inl rfl)

theorem flagAndCount_moves (s : State) (f : EventFlag) (name : CounterName) :
    Moves 0 s ((s.setFlag f).count name) :=
  (s.setFlag_move f).moves.then (count_move _ name)

theorem up_of_muted (h : s.muted = true) : s.lpi.state.up := .inr (muted_iff.1 h)

theorem noteAcceptance_move (s : State) : Move 0 s s.noteAcceptance := by
  unfold noteAcceptance
  split
  · next h =>
    split
    · exact .wire s _ rfl (.inr ⟨up_of_muted h, .inl rfl⟩)
    · exact .wire s _ rfl (.inl rfl)
  · exact .wire s s.lpi rfl (.inl rfl)

theorem countTransmitFault_move (s : State) : Move 0 s s.countTransmitFault := by
  unfold countTransmitFault
  dsimp only
  split
  · next h => exact .wire s _ rfl (.inr ⟨.inl h.1, .inr rfl⟩)
  · exact .wire s _ rfl (.inl rfl)

theorem advanceBit_move (s : State) : Move 0 s s.advanceBit := by
  refine .wire s _ ?_ (.inl rfl)
  cases s.lpi.transmission <;> rfl

theorem closed_move (s : State) : Move 0 s s.closed := by
  unfold closed
  split <;> exact .wire s _ rfl (.inl rfl)

/-! ### Frames of other parties -/

theorem receiveFrame_goes (i : Instr) (work : State → State)
    (hw : s.lpi.transmission = none → Goes c s.closed (work s.closed)) : Goes c s (s.receiveFrame i work) := by
  obtain ⟨hh, he⟩ | he | ⟨-, d, he⟩ := s.receiveFrame_cases i work <;> rw [he]
  · exact (hw hh.transmission).after (closed_move s).moves
  · exact .refl s
  · exact (setDecoder_move s d).goes

theorem acceptFrame_goes (source : Address) (dispatch : State → State)
    (hd : ∀ u : State, u.lpi.transmission = s.lpi.transmission → Goes c u (dispatch u)) :
    Goes c s (acceptFrame source dispatch s) := by
  have ht : (s.count .acceptedFrames).noteAcceptance.lpi.transmission = s.lpi.transmission := by
    unfold noteAcceptance endMute
    split_ifs <;> rfl
  have hm : Moves 0 s (s.count .acceptedFrames).noteAcceptance :=
    (count_move s _).moves.then (noteAcceptance_move _)
  unfold acceptFrame
  dsimp only
  split
  · exact (hm.then (setFlag_move _ _)).mono (by omega) |>.goes
  · exact (hd _ ht).after hm

theorem whenRunning_goes (work : State → State) (hw : s.running = true → Goes c s (work s)) :
    Goes c s (whenRunning work s) := by
  unfold whenRunning
  split
  · exact hw ‹_›
  · exact .refl s

theorem receive_goes (i : Instr) (source : Address) (dispatch : State → State)
    (hd : ∀ u : State, u.lpi.transmission = none → Goes c u (dispatch u)) :
    Goes c s (s.receiveFrame i (acceptFrame source dispatch)) :=
  receiveFrame_goes i _ fun hn => acceptFrame_goes source dispatch fun u hu =>
    hd u (by rw [hu, closed_transmission, hn])

theorem rejectFrame_goes (f : WireFrame) (s : State) : Goes c s (rejectFrame f s) := by
  have hn : ∀ v : State, Move 0 v v.noteRejection := fun v => .wire v _ rfl (.inl rfl)
  unfold rejectFrame
  split
  · exact ((count_move s _).moves.then (hn _)).mono (by omega) |>.goes
  · exact (hn s).goes

/-! ### Beacons (R7, R15) -/

theorem add_phase_lt {p : Nat} (hp : 0 < p) (i : Instant) (k : Nat) : (Instant.add p i k).phase < p := Nat.mod_lt _ hp

theorem testBeacon_goes (source : Address) (target : Instant) (hl : s.locked = true) (ht : target.phase < s.period)
    (hn : s.lpi.transmission = none) : Goes c s (s.testBeacon source target) := by
  have hstray : Moves 0 s s.strayBeacon := s.flagAndCount_moves .stray .strays
  unfold testBeacon
  dsimp only
  split_ifs with hf hb h0 hk
  · exact (Leap.forward c s source target hl ht hf.1 hf.2).goes
  · exact (Leap.backward c s source _ hl (by omega) hn).goes
  · exact .after hstray (Leap.lead c s.strayBeacon hl hk).goes
  · exact (Leap.merge c s source target _ hl ht (by omega) (by omega)).goes
  · exact (hstray.mono (by omega)).goes

theorem takeBeacon_goes (source : Address) (cycle : Word) (phase period : Half) (hr : s.running = true)
    (hn : s.lpi.transmission = none) : Goes c s (s.takeBeacon source cycle phase period) := by
  unfold takeBeacon
  split
  · exact (setFlag_move s _).goes
  · next hp =>
    have ht : (s.beaconTarget cycle phase).phase < s.period := add_phase_lt (by omega) _ _
    split
    · next hsync => exact (Leap.join c s source _ (by simp [listening, hr, hsync]) ht).goes
    · next hsync => exact testBeacon_goes source _ (by simp [locked, hr, hsync]) ht hn

/-! ### Service requests and queries -/

theorem takeRequest_goes (target : Byte) (tag : Half) (act : State → State) (ha : Goes c s (act s)) :
    Goes c s (s.takeRequest target tag act) := by
  unfold takeRequest
  split
  · split
    · exact ha
    · exact ((s.flagAndCount_moves _ _).mono (by omega)).goes
  · exact .refl s

theorem refuseRequest_goes (s : State) : Goes c s s.refuseRequest := ((s.flagAndCount_moves _ _).mono (by omega)).goes

theorem retimeEntry_goes (s : State) (entry : Byte) (delay : BitVec 24) : Goes c s (s.retimeEntry entry delay) := by
  unfold retimeEntry takeRetime
  split
  · next s1 h =>
    split at h
    · split at h
      · cases h
        exact (Move.retime s _ _).goes
      · cases h
    · cases h
  · exact refuseRequest_goes s

theorem takeRestart_goes (s : State) (source : Address) (target : Byte) (tag : Half) (start : StartReads) :
    Goes (some (.restart source target tag start)) s (s.takeRestart target tag start) := by
  have hr := (Leap.restart s source target tag start).goes
  unfold takeRestart
  split
  · exact takeRequest_goes target tag _ hr
  · split
    · exact hr
    · exact .refl s
  · exact .refl s

theorem takeQuery_goes (s : State) (target page : Byte) : Goes c s (s.takeQuery target page) := by
  have hp : ∀ p, Goes c s (s.takePage p) := by
    intro p
    unfold takePage
    split
    · exact (Move.report s _ s.fru.heldPage).goes
    · exact (Move.report s _ s.fru.heldPage).goes
    · exact (Move.report s s.fru.reportSlot _).goes
  unfold takeQuery
  split_ifs
  · exact hp _
  · exact .refl s
  · exact .refl s

/-! ### Transmissions -/

/-- R141: the beacon is chosen where it is offered. -/
theorem slot_of_candidate_beacon (h : s.candidate = some .beacon) : s.ltu.slot = .offered := by
  unfold candidate at h
  dsimp only at h
  split at h
  · cases h
  · cases h
  · split at h <;> cases h
  · split_ifs at h with ho hq
    · exact ho
    · cases h
    · split at h <;> cases h

theorem sendFrame_move (s : State) (hn : s.lpi.transmission = none) (x : Candidate) (f : WireFrame) (slot : BeaconSlot)
    (hslot : (x = .beacon ∧ s.ltu.slot = .offered ∧ slot = .sending) ∨ (x ≠ .beacon ∧ slot = s.ltu.slot)) :
    Move 0 s { s.sendFrame x f with ltu := { s.ltu with slot := slot } } :=
  .sends s _ { candidate := x, frame := f, bit := 0 } slot hn rfl rfl hslot

theorem beginAttempt_moves (s : State) (hn : s.lpi.transmission = none) : Moves 0 s s.beginAttempt := by
  unfold beginAttempt
  split
  · exact .refl 0 s
  · next hc =>
    exact (sendFrame_move s hn .beacon _ .sending (.inl ⟨rfl, slot_of_candidate_beacon hc, rfl⟩)).moves
  · split
    · exact .refl 0 s
    · exact (sendFrame_move s hn .mark _ s.ltu.slot (.inr ⟨by simp, rfl⟩)).moves
  · split
    · exact (sendFrame_move s hn .report _ s.ltu.slot (.inr ⟨by simp, rfl⟩)).moves.then
        (Move.report _ _ s.fru.heldPage)
    · exact .refl 0 s
    · exact .refl 0 s

theorem chooseCandidate_moves (s : State) (hn : s.lpi.transmission = none) : Moves 0 s s.chooseCandidate :=
  (Move.wire s { s.lpi with chosen := true } rfl (.inl rfl)).moves.trans
    (beginAttempt_moves { s with lpi := { s.lpi with chosen := true } } hn)

theorem mayBegin_transmission (h : s.mayBegin = true) : s.lpi.transmission = none := by
  unfold mayBegin at h
  simp only [Bool.and_eq_true, Option.isNone_iff_eq_none] at h
  exact h.1.1.1

theorem returnReport_moves (s : State) : Moves 0 s s.returnReport := by
  unfold returnReport
  split
  · exact (Move.report s _ _).moves
  · exact .refl 0 s
  · exact .refl 0 s

theorem reportAccepted_moves (s : State) : Moves 0 s s.reportAccepted := by
  unfold reportAccepted
  split
  · exact (Move.report s _ s.fru.heldPage).moves
  · exact (Move.report s _ _).moves

/-- The end of an attempt and the candidate's return, with whatever the LPI changes besides. -/
theorem returnCandidate_moves (s : State) (l : Lpi) (x : Transmission) (hx : s.lpi.transmission = some x)
    (hn : l.transmission = none) (hs : l.state = s.lpi.state) :
    Moves 0 s (State.returnCandidate { s with lpi := l } x.candidate) := by
  unfold returnCandidate
  split
  · next hc => exact (Move.ends s l x .offered hx hn hs (.inl ⟨hc, by simp⟩)).moves
  · next hc => exact (Move.ends s l x s.ltu.slot hx hn hs (.inr ⟨by simp [hc], rfl⟩)).moves
  · next hc =>
    exact (Move.ends s l x s.ltu.slot hx hn hs (.inr ⟨by simp [hc], rfl⟩)).moves.trans (returnReport_moves _)

/-- The same for an accepted frame. -/
theorem clearCandidate_moves (s : State) (l : Lpi) (x : Transmission) (hx : s.lpi.transmission = some x)
    (hn : l.transmission = none) (hs : l.state = s.lpi.state) :
    Moves 0 s (State.clearCandidate { s with lpi := l } x.candidate) := by
  unfold clearCandidate
  split
  · next hc => exact (Move.ends s l x .empty hx hn hs (.inl ⟨hc, by simp⟩)).moves
  · next hc =>
    exact (Move.ends s l x s.ltu.slot hx hn hs (.inr ⟨by simp [hc], rfl⟩)).moves.then (Move.headSent _)
  · next hc =>
    exact (Move.ends s l x s.ltu.slot hx hn hs (.inr ⟨by simp [hc], rfl⟩)).moves.trans (reportAccepted_moves _)

theorem acceptOwnFrame_moves (s : State) (x : Transmission) (hx : s.lpi.transmission = some x) :
    Moves 0 s (s.acceptOwnFrame x.candidate) :=
  clearCandidate_moves s _ x hx rfl rfl

theorem lpiTick_moves (s : State) : Moves 0 s s.lpiTick := by
  unfold lpiTick
  split
  · split
    · exact acceptOwnFrame_moves s _ ‹_›
    · exact .refl 0 s
  · split
    · exact chooseCandidate_moves s ‹_›
    · exact .refl 0 s

/-! ### Lines -/

/-- A change of one line that keeps its settings and brings up no record with another stamp. -/
theorem mapLine_move (s : State) (n : LineId) (f : LocalLine → LocalLine)
    (h : (f (s.line n)).settings = (s.line n).settings)
    (hr : ∀ r, (f (s.line n)).record = some r → ∃ q, (s.line n).record = some q ∧ r.stamp = q.stamp) :
    Move 0 s (s.mapLine n f) := by
  refine .lines s _ fun m => ?_
  have e : (s.llu.lines.modify n f).get m = if m = n then f (s.line n) else s.line m := s.line_mapLine n m f
  dsimp only
  rw [e]
  split
  · subst_vars; exact ⟨h, hr⟩
  · exact ⟨rfl, fun r h => ⟨r, h, rfl⟩⟩

/-- A change of every line that keeps its settings and its record. -/
theorem mapLines_move (s : State) (f : LocalLine → LocalLine)
    (h : ∀ l, (f l).settings = l.settings ∧ (f l).record = l.record) : Move 0 s (s.mapLines f) := by
  refine .lines s _ fun m => ?_
  have e : (s.llu.lines.map f).get m = f (s.line m) := s.line_mapLines m f
  dsimp only
  rw [e]
  exact ⟨(h _).1, fun r hr => ⟨r, (h _).2 ▸ hr, rfl⟩⟩

/-- A change of one line that keeps its settings and its record. -/
theorem mapLine_move_same (s : State) (n : LineId) (f : LocalLine → LocalLine)
    (h : (f (s.line n)).settings = (s.line n).settings) (hr : (f (s.line n)).record = (s.line n).record) :
    Move 0 s (s.mapLine n f) :=
  mapLine_move s n f h fun r e => ⟨r, hr ▸ e, rfl⟩

theorem markSampled_move (s : State) (n : LineId) : Move 0 s (s.markSampled n) := mapLine_move_same s n _ rfl rfl

theorem line_markSampled (s : State) (n m : LineId) :
    (s.markSampled n).line m = if m = n then { s.line n with sampled := true } else s.line m := s.line_mapLine n m _

theorem functionOf_markSampled (s : State) (n m : LineId) : (s.markSampled n).functionOf m = s.functionOf m := by
  unfold functionOf
  rw [line_markSampled]
  split <;> simp_all

theorem firstSightRecord_markSampled (s : State) (n : LineId) :
    (s.markSampled n).firstSightRecord n = s.firstSightRecord n := by
  unfold firstSightRecord
  rw [functionOf_markSampled, line_markSampled, if_pos rfl]
  rfl

theorem acceptEdge_moves (s : State) (n : LineId) (r : FilterRecord)
    (h : (s.line n).record = some r ∨ r = s.firstSightRecord n) :
    Moves (edgeCost n) s ((s.markSampled n).acceptEdge n r) := by
  have h' : ((s.markSampled n).line n).record = some r ∨ r = (s.markSampled n).firstSightRecord n := by
    rw [firstSightRecord_markSampled, line_markSampled, if_pos rfl]
    exact h
  simpa using (markSampled_move s n).moves.tail (Move.edge _ n r h')

theorem sightLine_moves (s : State) (n : LineId) : Moves 1 s (s.sightLine n) := by
  unfold sightLine
  dsimp only
  split
  · exact (acceptEdge_moves s n _ (.inr rfl)).mono (by unfold edgeCost; split <;> omega)
  · have hm := Move.sight (s.markSampled n) n
    rw [firstSightRecord_markSampled] at hm
    exact ((markSampled_move s n).moves.then hm).mono (by omega)

theorem sampleTick_moves (s : State) (n : LineId) : Moves (edgeCost n) s (s.sampleTick n) := by
  unfold sampleTick sampleLine
  split
  · exact .refl _ s
  · split
    · exact .refl _ s
    · next r hr =>
      split
      · exact acceptEdge_moves s n r (.inl hr)
      · refine (mapLine_move s n (fun l => { l with record := some { r with remaining := r.remaining - 1 } }) rfl
          fun q hq => ⟨r, hr, ?_⟩).moves.mono (Nat.zero_le _)
        cases hq
        rfl

theorem countdownTick_moves (s : State) (n : LineId) : Moves 0 s (s.countdownTick n) := by
  unfold countdownTick
  split
  · exact .refl 0 s
  · split
    · exact .refl 0 s
    · next r hr =>
      split
      · exact (Move.onTimeExpiry s n).moves
      · exact (Move.countdown s n r hr).moves

theorem readBackAgrees_move (s : State) (n : LineId) : Move 0 s (s.readBackAgrees n) := mapLine_move_same s n _ rfl rfl

theorem readBackDiffers_moves (s : State) (n : LineId) : Moves 0 s (s.readBackDiffers n) := by
  unfold readBackDiffers
  split
  · exact (mapLine_move_same s n (fun l => { l with mismatchTimer := Config.mismatchTicks, mismatch := true })
      rfl rfl).moves.then (setFlag_move _ _)
  · exact (mapLine_move_same s n (fun l => { l with mismatchTimer := l.mismatchTimer + 1 }) rfl rfl).moves

theorem compareTick_moves (s : State) (n : LineId) : Moves 0 s (s.compareTick n) := by
  unfold compareTick compareLine
  split_ifs
  · exact .refl 0 s
  · exact (readBackAgrees_move s n).moves
  · exact readBackDiffers_moves s n
  · exact .refl 0 s

theorem refresh_settings (l : LocalLine) (demand : Level) : (l.refresh demand).settings = l.settings := by
  unfold LocalLine.refresh
  split <;> rfl

theorem refresh_record (l : LocalLine) (demand : Level) : (l.refresh demand).record = l.record := by
  unfold LocalLine.refresh
  split <;> rfl

theorem refreshLines_move (s : State) : Move 0 s s.refreshLines := by
  refine .lines s _ fun n => ?_
  rw [Table.get_ofFn, refresh_settings, refresh_record]
  exact ⟨rfl, fun r hr => ⟨r, hr, rfl⟩⟩

theorem clearMarks_moves (s : State) (hr : s.running = true) : Moves 0 s s.clearMarks :=
  ((Move.ticked s false hr).moves.then (Move.uncount _)).then (mapLines_move _ (fun l => { l with
    sampled := false, deadCounted := false, pulseCounted := false, compared := false }) fun _ => ⟨rfl, rfl⟩)

/-! ### The tick -/

/-- Behind the LTU's part of a tick come moves with at most two count changes, those of L6 and L7. -/
theorem runningParts_moves (s : State) : Moves 2 s s.runningParts := by
  unfold runningParts
  dsimp only
  have h1 := (lpiTick_moves s).trans (foldl_moves (cost := fun _ => 0) countdownTick_moves allLines s.lpiTick)
  have h2 := h1.then (mapLines_move _ deadTimeTick fun _ => by unfold deadTimeTick; split <;> exact ⟨rfl, rfl⟩)
  have h3 := h2.trans (foldl_moves sampleTick_moves allLines _)
  have h4 := h3.then (mapLines_move _ pulseTick fun _ => by unfold pulseTick; split <;> exact ⟨rfl, rfl⟩)
  exact h4.trans (foldl_moves (cost := fun _ => 0) compareTick_moves allLines _)

theorem ltuTick_leap (s : State) (hr : s.running = true) : Leap c s s.ltuTick := by
  unfold ltuTick
  split
  · next hsync =>
    have hl : s.listening = true := by simp [listening, hr, hsync]
    split_ifs with hp
    · exact .selfStart c s hl
    · exact .wrap c s hl
    · exact .listen c s hl (by simpa using hp)
  · next hsync =>
    have hl : s.locked = true := by simp [locked, hr, hsync]
    split_ifs with hh
    · exact .hold c s hl hh
    · exact .advance c s hl (by omega)

theorem markTicked_move (s : State) (hr : s.running = true) : Move 0 s s.markTicked := .ticked s true hr

theorem readTo_move (s : State) (k : Nat) : Move 0 s (s.readTo k) := .loader s _ rfl

theorem readTick_moves (s : State) : Moves 0 s s.readTick := by
  unfold readTick
  split
  · exact .refl 0 s
  · exact readTo_move s _ |>.moves

theorem tick_goes (s : State) : Goes c s s.tick := by
  unfold tick
  split
  · split
    · exact .refl s
    · exact (((readTick_moves s).then (advanceBit_move _)).mono (by omega)).goes
  · exact (((lpiTick_moves s).then (advanceBit_move _)).mono (by omega)).goes
  · next hrun =>
    have hr : s.running = true := by simp [running, hrun]
    split
    · have hr' : s.runningParts.refreshLines.running = true := by simpa [running] using hr
      exact ((((runningParts_moves s).then (refreshLines_move _)).trans (clearMarks_moves _ hr')).then
        (advanceBit_move _)).goes
    · exact .after (markTicked_move s hr).moves (ltuTick_leap s.markTicked hr).goes

end State
end Sys2Proof.Machine
end

section
/-! Every command, and with them every step, goes by moves and at most one leap. -/

namespace Sys2Proof.Machine

variable {s t u : State} {c : Option Instr}

/-- A command that has its effect under a condition. -/
theorem Goes.ite {p : Prop} [Decidable p] (h : p → Goes c s t) : Goes c s (if p then t else s) := by
  split
  · exact h ‹_›
  · exact .refl s

namespace State

/-! ### The start -/

theorem readingTicks_run {k : Nat} (h : s.readingTicks = some k) : s.cfl.run = .configuring := by
  unfold readingTicks at h
  split at h
  · cases h
  · cases h
  · assumption

theorem readOut_moves (s : State) (k : Nat) : Moves 0 s (s.readOut k) :=
  (setDecoder_move s _).moves.then (readTo_move _ _)

theorem endRead_move (s : State) : Move 0 s s.endRead := .loader s _ rfl

theorem execMemoryNotAnswering_goes (place : Option MemoryAck) (h : execMemoryNotAnswering place s = .next t) :
    Goes c s t := by
  cases h
  split
  · exact .refl s
  · next k hk =>
    have hrun : s.cfl.run = .configuring := readingTicks_run hk
    exact .ite fun _ => .after (readOut_moves s k) (Leap.halt c (s.readOut k) 1 hrun).goes

theorem execImageChecks_goes (image : List Byte) (pins : BitVec 8) (h : execImageChecks image pins s = .next t) :
    Goes c s t := by
  cases h
  split
  · exact .refl s
  · next k hk =>
    have hrun : s.cfl.run = .configuring := readingTicks_run hk
    refine .ite fun _ => .after ((readOut_moves s k).then (endRead_move _)) ?_
    dsimp only
    split
    · next h0 => exact (Leap.run c (s.readOut k).endRead _ pins hrun h0).goes
    · exact (Leap.halt c (s.readOut k).endRead _ hrun).goes

/-! ### The LTU's commands -/

/-- A command that is the LTU's part of a tick: the mark, and behind it a leap. -/
theorem ticked_goes {f : State → State} (hr : s.running = true) (h : Leap c s.markTicked (f s.markTicked)) :
    Goes c s (f s.markTicked) := .after (markTicked_move s hr).moves h.goes

theorem running_of_listening (h : s.listening = true) : s.running = true := by
  unfold listening at h
  simp only [Bool.and_eq_true] at h
  exact h.1

theorem running_of_locked (h : s.locked = true) : s.running = true := by
  unfold locked at h
  simp only [Bool.and_eq_true] at h
  exact h.1

theorem execLtu_goes (h : execListenWrap s = .next t ∨ execSelfStart s = .next t ∨ execCycleExpiry s = .next t ∨
    execHoldEnd s = .next t ∨ execTimeHeadDue s = .next t) : Goes c s t := by
  rcases h with h | h | h | h | h <;> cases h
  · exact .ite fun h => ticked_goes (running_of_listening h.1) (.wrap c s.markTicked h.1)
  · exact .ite fun h => ticked_goes (running_of_listening h.1) (.selfStart c s.markTicked h.1)
  · refine .ite fun h => ?_
    have hp : ¬ s.markTicked.now.phase + 1 < s.markTicked.period := Nat.not_lt.2 (of_decide_eq_true h.2.2.1)
    rw [← show s.markTicked.advance = s.markTicked.expireCycle from if_neg hp]
    exact ticked_goes (running_of_locked h.1) (.advance c s.markTicked h.1 h.2.1)
  · refine .ite fun h => ticked_goes (running_of_locked h.1) (.hold c s.markTicked h.1 ?_)
    have : s.markTicked.ltu.hold = 1 := h.2.1
    omega
  · exact .ite fun h => ticked_goes (running_of_locked h.1) (.advance c s.markTicked h.1 h.2.1)

/-! ### The commands of the lines -/

theorem execFirstSight_goes (n : LineId) (h : execFirstSight n s = .next t) : Goes c s t := by
  cases h
  exact .ite fun _ => ((sightLine_moves s n).mono (by omega)).goes

theorem execFilterReversion_goes (n : LineId) (h : execFilterReversion n s = .next t) : Goes c s t := by
  cases h
  refine .ite fun _ => (((markSampled_move s n).moves.then (mapLine_move _ n (fun l => { l with record := none })
    rfl fun r hr => ?_)).mono (Nat.zero_le _)).goes
  cases hr

theorem execEdgeAccept_goes (n : LineId) (h : execEdgeAccept n s = .next t) : Goes c s t := by
  cases h
  split
  · exact .refl s
  · next r hr =>
    exact .ite fun _ => ((acceptEdge_moves s n r (.inl hr)).mono (by unfold edgeCost; split <;> omega)).goes

theorem execTimers_goes (n : LineId) (h : execDeadTimeExpiry n s = .next t ∨ execPulseEnd n s = .next t) :
    Goes c s t := by
  rcases h with h | h <;> cases h
  · exact .ite fun _ => (mapLine_move_same s n _ rfl rfl).goes
  · exact .ite fun _ => (mapLine_move_same s n _ rfl rfl).goes

theorem execReadBack_goes (n : LineId) (h : execMismatchDetected n s = .next t ∨ execReadBackAgreement n s = .next t) :
    Goes c s t := by
  rcases h with h | h <;> cases h
  · split
    · exact .refl s
    · exact .ite fun _ => (((readBackDiffers_moves s n).then (mapLine_move_same _ n _ rfl rfl)).mono (by omega)).goes
  · exact .ite fun _ => (((readBackAgrees_move s n).moves.then (mapLine_move_same _ n _ rfl rfl)).mono (by omega)).goes

theorem execOnTimeExpiry_goes (n : LineId) (h : execOnTimeExpiry n s = .next t) : Goes c s t := by
  cases h
  exact .ite fun _ => (Move.onTimeExpiry s n).goes

/-! ### The commands of the sending side -/

theorem execTransmitStart_goes (h : execTransmitStart s = .next t) : Goes c s t := by
  cases h
  exact .ite fun h => ((chooseCandidate_moves s (mayBegin_transmission h)).mono (by omega)).goes

theorem execArbitrationLost_goes (h : execArbitrationLost s = .next t) : Goes c s t := by
  cases h
  split
  · exact .refl s
  · next x hx => exact .ite fun _ => ((returnCandidate_moves s s.endAttempt.lpi x hx rfl rfl).mono (by omega)).goes

theorem execTransmitFault_goes (b : Bool) (h : execTransmitFault b s = .next t) : Goes c s t := by
  cases h
  split
  · exact .refl s
  · next x hx =>
    exact .ite fun _ => ((((returnCandidate_moves s (s.endAttempt.setDecoder (s.decoderAfterFault x)).lpi x hx rfl
      rfl).trans (flagAndCount_moves _ .txFault .txFaults)).then (countTransmitFault_move _)).mono (by omega)).goes

theorem execOwnFrameAccepted_goes (h : execOwnFrameAccepted s = .next t) : Goes c s t := by
  cases h
  split
  · exact .refl s
  · next x hx => exact .ite fun _ => ((acceptOwnFrame_moves s x hx).mono (by omega)).goes

/-! ### The commands of the receiving side -/

theorem execReceiveDecoderOutsideFrame_goes (h : execReceiveDecoderOutsideFrame s = .next t) : Goes c s t := by
  cases h
  split
  · exact .refl s
  · split
    · exact (setDecoder_move s _).goes
    · exact .refl s
    · exact .refl s
    · exact .refl s

theorem execStartBitRead_goes (h : execStartBitRead s = .next t) : Goes c s t := by
  cases h
  split
  · exact .refl s
  · split
    · exact (setDecoder_move s _).goes
    · exact (Move.wire s s.readStartBit.lpi rfl (.inl rfl)).goes
    · exact .refl s
    · exact .refl s

/-- A frame that only a RUNNING station dispatches. -/
theorem receiveRunning_goes (i : Instr) (source : Address) (work : State → State)
    (hw : ∀ u : State, u.running = true → u.lpi.transmission = none → Goes c u (work u)) :
    Goes c s (s.receiveFrame i (acceptFrame source (whenRunning work))) :=
  receive_goes i source _ fun u hn => whenRunning_goes work fun hr => hw u hr hn

theorem execQuery_goes (source : Address) (target page : Byte) (h : execQuery source target page s = .next t) :
    Goes c s t := by
  cases h
  split
  · exact acceptFrame_goes source _ fun u _ => takeQuery_goes u target page
  · exact receive_goes _ source _ fun u _ => takeQuery_goes u target page

end State

open State

/-- Every command goes by moves and at most one leap. -/
theorem exec_goes (i : Instr) (h : exec i s = .next t) : Goes (some i) s t := by
  cases i with
  | pinReset => cases h; exact (Leap.pinReset s).goes
  | resetRelease start =>
    cases h
    exact .ite fun _ => (Move.loader s { s.cfl with
      address := start.straps, read := .reading 0, memory := start.memory } rfl).goes
  | memoryNotAnswering place => exact execMemoryNotAnswering_goes place h
  | imageChecks image pins => exact execImageChecks_goes image pins h
  | listenWrap => exact execLtu_goes (.inl h)
  | selfStart => exact execLtu_goes (.inr (.inl h))
  | cycleExpiry => exact execLtu_goes (.inr (.inr (.inl h)))
  | holdEnd => exact execLtu_goes (.inr (.inr (.inr (.inl h))))
  | timeHeadDue => exact execLtu_goes (.inr (.inr (.inr (.inr h))))
  | onTimeExpiry n => exact execOnTimeExpiry_goes n h
  | firstSight n => exact execFirstSight_goes n h
  | filterReversion n => exact execFilterReversion_goes n h
  | edgeAccept n => exact execEdgeAccept_goes n h
  | deadTimeExpiry n => exact execTimers_goes n (.inl h)
  | pulseEnd n => exact execTimers_goes n (.inr h)
  | mismatchDetected n => exact execReadBack_goes n (.inl h)
  | readBackAgreement n => exact execReadBack_goes n (.inr h)
  | transmitStart => exact execTransmitStart_goes h
  | arbitrationLost => exact execArbitrationLost_goes h
  | transmitFault b => exact execTransmitFault_goes b h
  | ownFrameAccepted => exact execOwnFrameAccepted_goes h
  | frameRejected f => cases h; exact receiveFrame_goes _ _ fun _ => rejectFrame_goes f _
  | beacon source cycle phase period =>
    cases h
    exact receiveRunning_goes _ source _ fun u hr hn => takeBeacon_goes source cycle phase period hr hn
  | mark source channel seq cycleLow phase =>
    cases h
    exact receiveRunning_goes _ source _ fun u _ _ => (Move.mark u source _ seq cycleLow phase).goes
  | clearFaults source target tag =>
    cases h
    exact receiveRunning_goes _ source _ fun u _ _ => takeRequest_goes target tag _ (Move.flags u _).goes
  | purge source target tag =>
    cases h
    exact receiveRunning_goes _ source _ fun u _ _ => takeRequest_goes target tag _ (Move.cancelAll u).goes
  | restart source target tag start =>
    cases h
    exact receive_goes _ source _ fun u _ => takeRestart_goes u source target tag start
  | unknownOperation source target tag operation =>
    cases h
    exact receiveRunning_goes _ source _ fun u _ _ => takeRequest_goes target tag _ (refuseRequest_goes u)
  | retime source target tag entry delay =>
    cases h
    exact receiveRunning_goes _ source _ fun u _ _ => takeRequest_goes target tag _ (retimeEntry_goes u entry delay)
  | query source target page => exact execQuery_goes source target page h
  | report source content => cases h; exact receive_goes _ source _ fun u _ => .refl u
  | receiveDecoderOutsideFrame => exact execReceiveDecoderOutsideFrame_goes h
  | startBitRead => exact execStartBitRead_goes h

/-- Every step goes by moves and at most one leap. -/
theorem step_goes (h : step s = .next t) : Goes s.pending.head? s t := by
  unfold step at h
  split at h
  · cases h
    exact tick_goes s
  · next i rest hp =>
    rw [hp]
    exact .after (Move.queue s rest).moves (exec_goes i h)

/-- What every move and every leap keeps, every step keeps. -/
theorem step_keeps {P : State → Prop} (hm : ∀ k s t, Move k s t → P s → P t)
    (hl : ∀ c s t, Leap c s t → P s → P t) (h : step s = .next t) (hs : P s) : P t :=
  (step_goes h).keeps hm (hl _) hs

end Sys2Proof.Machine
end

section
/-! What marks, admissions, accepted edges and captures can do, said once: every case of each, with the condition it
falls under. -/

namespace Sys2Proof.Machine.State

variable (s : State)

/-- R70 to R73: every outcome of a request of the time domain. -/
theorem admitTime_cases (due : Instant) (k : Fin 16) :
    s.admitTime due k = s.refuseMissed ∨ s.admitTime due k = s.refuseNoSlot ∨
      ∃ slot free, s.asc.free = slot :: free ∧
        let filed : State := { s with asc := { s.asc with
          free := free, time := fileAction s.timeDomain (newAction slot due k) s.asc.time } }
        (s.timeLateness due ≤ 0 ∧ s.admitTime due k = filed) ∨
          (0 < s.timeLateness due ∧ s.admitTime due k = (filed.count .lateFires).timePass) := by
  unfold admitTime
  split
  · exact .inl rfl
  · split
    · exact .inr (.inl rfl)
    · next slot free e =>
      refine .inr (.inr ⟨slot, free, e, ?_⟩)
      dsimp only
      split
      · next h => exact .inr ⟨h, rfl⟩
      · next h => exact .inl ⟨Int.not_lt.1 h, rfl⟩

/-- R70 to R73: every outcome of a request of the travel domain. -/
theorem admitTravel_cases (due : Word) (k : Fin 16) :
    s.admitTravel due k = s.refuseMissed ∨ s.admitTravel due k = s.refuseNoSlot ∨
      ∃ slot free, s.asc.free = slot :: free ∧
        let filed : State := { s with asc := { s.asc with
          free := free, travel := fileAction s.travelDomain (newAction slot due k) s.asc.travel } }
        (s.travelLateness due ≤ 0 ∧ s.admitTravel due k = filed) ∨
          (0 < s.travelLateness due ∧ s.admitTravel due k = (filed.count .lateFires).travelPass) := by
  unfold admitTravel
  split
  · exact .inl rfl
  · split
    · exact .inr (.inl rfl)
    · next slot free e =>
      refine .inr (.inr ⟨slot, free, e, ?_⟩)
      dsimp only
      split
      · next h => exact .inr ⟨h, rfl⟩
      · next h => exact .inl ⟨Int.not_lt.1 h, rfl⟩

/-- R55: what the sequence test leaves of a mark that passes it. -/
theorem sequenceTest_cases {s t : State} {i : Fin 64} {seq : Byte} (h : s.sequenceTest i seq = some t) :
    t = s.sawSequence i seq ∨ ∃ gap, t = ((s.sawSequence i seq).setFlag .markGap).countBy .lostMarks gap := by
  unfold sequenceTest at h
  split at h
  · cases h; exact .inl rfl
  · split at h
    · cases h
    · split at h
      · cases h; exact .inl rfl
      · cases h; exact .inr ⟨_, rfl⟩

/-- R52 to R60: every way a mark can go, by either route. -/
theorem processMark_cases (source : Address) (channel : Fin 8) (seq : Byte) (capture : Instant)
    (position : State → Option Word) :
    s.processMark source channel seq capture position = s ∨
    s.processMark source channel seq capture position = s.count .duplicates ∨
    ∃ i s1, (s.entry i).valid = true ∧ s.sequenceTest i seq = some s1 ∧
      (s.processMark source channel seq capture position = s1 ∨
        s.processMark source channel seq capture position = s1.setFlag .markTooOld ∨
        s.processMark source channel seq capture position =
          s1.admitTime (Instant.add s1.period capture (s1.entry i).delay.toNat) (s1.entry i).template ∨
        ∃ p, position s1 = some p ∧ s.processMark source channel seq capture position =
          s1.admitTravel (p + (s1.entry i).delay.setWidth 32) (s1.entry i).template) := by
  unfold processMark
  split
  · exact .inl rfl
  · next i hl =>
    split
    · exact .inr (.inl rfl)
    · next s1 hs1 =>
      refine .inr (.inr ⟨i, s1, lookup_valid s _ _ i hl, hs1, ?_⟩)
      split
      · unfold requestFor
        dsimp only
        split
        · exact .inr (.inr (.inl rfl))
        · split
          · exact .inr (.inl rfl)
          · next p hp => exact .inr (.inr (.inr ⟨p, hp, rfl⟩))
      · exact .inl rfl

/-- R122, R123, R128: every way an accepted edge can go, behind the change of the filtered level. -/
theorem acceptEdge_cases (n : LineId) (r : FilterRecord) :
    let s1 := s.mapLine n fun l => l.accept r.pending
    s.acceptEdge n r = s1 ∨ s.acceptEdge n r = s1.zeroRebase ∨
      (∃ d, (n = 6 ∨ n = 7) ∧ s.acceptEdge n r = s1.countChange d) ∨
      ∃ i p, r.stamp = some { instant := some i, position := p } ∧
        s.acceptEdge n r = (s1.mapLine n LocalLine.startDeadTime).takeCapture (s1.line n).settings i p := by
  unfold acceptEdge
  dsimp only
  split
  · unfold senseEdge
    dsimp only
    split
    · split
      · next i p hst => exact .inr (.inr (.inr ⟨i, p, hst, rfl⟩))
      · exact .inl rfl
      · exact .inl rfl
    · exact .inl rfl
  · split
    · exact .inr (.inl rfl)
    · exact .inl rfl
  · unfold encoderEdge
    split
    · exact .inl rfl
    · split
      · next h => exact .inr (.inr (.inl ⟨_, .inl h.1, rfl⟩))
      · exact .inl rfl
    · split
      · next h => exact .inr (.inr (.inl ⟨_, .inl h, rfl⟩))
      · split
        · next h => exact .inr (.inr (.inl ⟨_, .inr h, rfl⟩))
        · exact .inl rfl
  · exact .inl rfl
  · exact .inl rfl
  · exact .inl rfl

/-- R43, R44: what the number and each route keep, a capture keeps. -/
theorem takeCapture_keeps {P : State → Prop} {s : State} (settings : LineSettings) (i : Instant) (p : Word)
    (hc : ∀ (u : State) m, P u → P { u with mku := { u.mku with counters := m } })
    (hl : ∀ (u : State) channel seq, P u → P (u.localRoute channel seq i p))
    (hp : ∀ (u : State) channel seq, P u → P (u.publishRoute channel seq i)) (h : P s) :
    P (s.takeCapture settings i p) := by
  have h1 : P { s with mku := { s.mku with
      counters := s.mku.counters.set settings.channel (s.mku.counters.get settings.channel + 1#8) } } := hc s _ h
  unfold takeCapture
  dsimp only
  split
  · split
    · split
      · exact hp _ _ _ (hl _ _ _ h1)
      · exact hp _ _ _ h1
    · split
      · exact hl _ _ _ h1
      · exact h1
  · exact h

/-- What the change of the level, a rebase, a count change, the start of a dead time and a capture keep, an accepted
edge keeps. -/
theorem acceptEdge_keeps {P : State → Prop} (n : LineId) (r : FilterRecord)
    (ha : P (s.mapLine n fun l => l.accept r.pending))
    (hz : P (s.mapLine n fun l => l.accept r.pending).zeroRebase)
    (hd : ∀ d, n = 6 ∨ n = 7 → P ((s.mapLine n fun l => l.accept r.pending).countChange d))
    (hc : ∀ i p settings, r.stamp = some { instant := some i, position := p } →
      P (((s.mapLine n fun l => l.accept r.pending).mapLine n LocalLine.startDeadTime).takeCapture settings i p)) :
    P (s.acceptEdge n r) := by
  obtain h | h | ⟨d, hn, h⟩ | ⟨i, p, hst, h⟩ := s.acceptEdge_cases n r <;> rw [h]
  · exact ha
  · exact hz
  · exact hd d hn
  · exact hc i p _ hst

/-- R52: a received mark goes no further than its test, or through the shared steps. -/
theorem receiveMark_cases (source : Address) (channel : Fin 8) (seq : Byte) (cycleLow phase : Half) :
    s.receiveMark source channel seq cycleLow phase = s ∨
      (s.locked = true ∧ phase.toNat < s.period ∧
        let capture : Instant := { cycle := rebuildCycle s.now.cycle cycleLow, phase := phase.toNat }
        s.receiveMark source channel seq cycleLow phase =
          s.processMark source channel seq capture fun u => u.positionAt capture) := by
  unfold receiveMark
  split
  · next h => exact .inr ⟨h.1, h.2, rfl⟩
  · exact .inl rfl

end Sys2Proof.Machine.State
end

section
/-! The counters (R163): every increment stops at 65,535, so no step takes one past it. -/

namespace Sys2Proof.Machine

theorem Counters.value_bump (c : Counters) (k : Nat) (m n : CounterName) :
    (c.bump k n).value m = if m = n then saturate (c.value n + k) else c.value m := by
  cases n <;> cases m <;> rfl

theorem Counters.bump_bounded {c : Counters} (h : c.Bounded) (k : Nat) (n : CounterName) : (c.bump k n).Bounded := by
  intro m
  rw [Counters.value_bump]
  split
  · exact Nat.min_le_left _ _
  · exact h m

theorem Counters.zero_bounded : Counters.zero.Bounded := fun m => by cases m <;> exact Nat.zero_le _

namespace State

/-- R163, of the station. -/
def CountersBounded (s : State) : Prop := s.fru.counters.Bounded

variable {s : State}

theorem countersBounded_countBy (h : s.CountersBounded) (name : CounterName) (k : Nat) :
    (s.countBy name k).CountersBounded := Counters.bump_bounded h k name

theorem countersBounded_of_fru {t : State} (e : t.fru = s.fru) (h : s.CountersBounded) : t.CountersBounded := by
  unfold CountersBounded
  rw [e]
  exact h

theorem admitTime_countersBounded (h : s.CountersBounded) (due : Instant) (k : Fin 16) :
    (s.admitTime due k).CountersBounded := by
  obtain e | e | ⟨slot, free, -, ⟨-, e⟩ | ⟨-, e⟩⟩ := s.admitTime_cases due k <;> rw [e]
  · exact countersBounded_countBy (s := s.setFlag .missed) h _ _
  · exact countersBounded_countBy (s := s.setFlag .poolExhausted) h _ _
  · exact h
  · exact countersBounded_of_fru (timePass_fru _) (countersBounded_countBy (s := { s with asc := _ }) h _ _)

theorem admitTravel_countersBounded (h : s.CountersBounded) (due : Word) (k : Fin 16) :
    (s.admitTravel due k).CountersBounded := by
  obtain e | e | ⟨slot, free, -, ⟨-, e⟩ | ⟨-, e⟩⟩ := s.admitTravel_cases due k <;> rw [e]
  · exact countersBounded_countBy (s := s.setFlag .missed) h _ _
  · exact countersBounded_countBy (s := s.setFlag .poolExhausted) h _ _
  · exact h
  · exact countersBounded_of_fru (travelPass_fru _) (countersBounded_countBy (s := { s with asc := _ }) h _ _)

theorem sequenceTest_countersBounded (h : s.CountersBounded) {i : Fin 64} {seq : Byte} {t : State}
    (e : s.sequenceTest i seq = some t) : t.CountersBounded := by
  obtain rfl | ⟨gap, rfl⟩ := sequenceTest_cases e
  · exact h
  · exact countersBounded_countBy (s := (s.sawSequence i seq).setFlag .markGap) h _ _

theorem processMark_countersBounded (h : s.CountersBounded) (source : Address) (channel : Fin 8) (seq : Byte)
    (capture : Instant) (position : State → Option Word) :
    (s.processMark source channel seq capture position).CountersBounded := by
  obtain e | e | ⟨i, s1, -, h1, e | e | e | ⟨p, -, e⟩⟩ := s.processMark_cases source channel seq capture position <;>
    rw [e]
  · exact h
  · exact countersBounded_countBy h _ _
  · exact sequenceTest_countersBounded h h1
  · exact sequenceTest_countersBounded (t := s1) h h1
  · exact admitTime_countersBounded (sequenceTest_countersBounded h h1) _ _
  · exact admitTravel_countersBounded (sequenceTest_countersBounded h h1) _ _

theorem receiveMark_countersBounded (h : s.CountersBounded) (source : Address) (channel : Fin 8) (seq : Byte)
    (cycleLow phase : Half) : (s.receiveMark source channel seq cycleLow phase).CountersBounded := by
  obtain e | ⟨-, -, e⟩ := s.receiveMark_cases source channel seq cycleLow phase <;> rw [e]
  · exact h
  · exact processMark_countersBounded h _ _ _ _ _

theorem publishRoute_countersBounded (h : s.CountersBounded) (channel : Fin 8) (seq : Byte) (i : Instant) :
    (s.publishRoute channel seq i).CountersBounded := by
  unfold publishRoute
  split
  · exact h
  · exact countersBounded_countBy (s := s.setFlag .markOutOverrun) h _ _

theorem acceptEdge_countersBounded (h : s.CountersBounded) (n : LineId) (r : FilterRecord) :
    (s.acceptEdge n r).CountersBounded := by
  refine s.acceptEdge_keeps n r h (countersBounded_of_fru (zeroRebase_fru _) h)
    (fun d _ => countersBounded_of_fru (countChange_fru _ d) h) fun i p settings _ => ?_
  exact takeCapture_keeps (P := CountersBounded) settings i p (fun _ _ hu => hu)
    (fun _ _ _ hu => processMark_countersBounded hu _ _ _ _ _)
    (fun _ _ _ hu => publishRoute_countersBounded hu _ _ _) h

/-- R163: no move takes a counter past 65,535. -/
theorem move_countersBounded {k : Nat} {t : State} (m : Move k s t) (h : s.CountersBounded) : t.CountersBounded := by
  cases m with
  | count _ c k => exact countersBounded_countBy h c k
  | edge _ n r _ => exact acceptEdge_countersBounded h n r
  | mark _ source channel seq cycleLow phase => exact receiveMark_countersBounded h _ _ _ _ _
  | cancelAll => exact countersBounded_of_fru (cancelAll_fru s) h
  | onTimeExpiry _ n => exact countersBounded_of_fru (s := (s.mapDrive n _).setFlag .driveTimeout) (cancelByLine_fru _ n) h
  | _ => exact h

/-- R163: no leap takes a counter past 65,535. -/
theorem leap_countersBounded {c : Option Instr} {t : State} (l : Leap c s t) (h : s.CountersBounded) :
    t.CountersBounded := by
  cases l with
  | pinReset => exact Counters.zero_bounded
  | advance => exact countersBounded_of_fru (advance_fru s) h
  | selfStart => exact countersBounded_of_fru (startSelf_fru s) h
  | join _ _ source target => exact countersBounded_of_fru (adoptInListen_fru s source target) h
  | forward _ _ source target => exact countersBounded_of_fru (adoptForward_fru s source target) h
  | merge _ _ source target k =>
    have h1 : (s.mergeTo source target k).fru = ((s.setFlag .merge).count .merges).fru := by
      unfold mergeTo
      dsimp only
      split
      · simp [mapLtu]; rfl
      · simp [mapLtu]; rfl
    exact countersBounded_of_fru h1 (countersBounded_countBy (s := s.setFlag .merge) h _ _)
  | _ => exact h

/-- Settles O56: every move and every leap keeps the counters within their bound. -/
theorem stepKeepsCountersBounded : Obligations.StepKeepsCountersBounded := fun _ _ h e =>
  step_keeps (P := CountersBounded) (fun _ _ _ m => move_countersBounded m) (fun _ _ _ l => leap_countersBounded l) e h

end State
end Sys2Proof.Machine
end

section
/-! The slots of the action pool (R62): no step loses one or doubles one. -/

namespace Sys2Proof.Machine.State

variable {s t : State}

theorem reset_slotsPartitioned : State.reset.SlotsPartitioned := by
  unfold SlotsPartitioned
  simp [State.reset, Asc.reset]

theorem acceptEdge_slots (h : s.SlotsPartitioned) (n : LineId) (r : FilterRecord) :
    (s.acceptEdge n r).SlotsPartitioned := by
  have h1 : (s.mapLine n fun l => l.accept r.pending).SlotsPartitioned := slots_of_asc rfl h
  refine s.acceptEdge_keeps n r h1 (zeroRebase_slots _ h1) (fun d _ => countChange_slots _ d h1) fun i p settings _ => ?_
  exact takeCapture_keeps (P := SlotsPartitioned) settings i p (fun u m hu => slots_of_asc (s := u) rfl hu)
    (fun u _ _ hu => processMark_slots u _ _ _ _ _ hu)
    (fun u _ _ hu => slots_of_asc (publishRoute_asc u _ _ _) hu) (slots_of_asc (mapLine_asc _ _ _) h1)

/-- R62: no move loses or doubles a slot. -/
theorem move_slots {k : Nat} (m : Move k s t) (h : s.SlotsPartitioned) : t.SlotsPartitioned := by
  cases m with
  | edge _ n r _ => exact acceptEdge_slots h n r
  | mark _ source channel seq cycleLow phase =>
    obtain e | ⟨-, -, e⟩ := s.receiveMark_cases source channel seq cycleLow phase <;> rw [e]
    · exact h
    · exact processMark_slots s _ _ _ _ _ h
  | cancelAll => exact cancelWhere_slots s _ h
  | onTimeExpiry _ n => exact cancelWhere_slots _ _ (slots_of_asc (s := s) rfl h)
  | _ => exact h

theorem advance_slots (h : s.SlotsPartitioned) : s.advance.SlotsPartitioned := by
  unfold advance
  split
  · exact timePass_slots _ (slots_of_asc (s := s) rfl h)
  · exact timePass_slots _ (slots_of_asc (s := s) (by simp [mapLtu]) h)

theorem adoptForward_slots (h : s.SlotsPartitioned) (source : Address) (target : Instant) :
    (s.adoptForward source target).SlotsPartitioned := by
  unfold adoptForward
  refine timePass_slots _ (slots_of_asc (s := s) ?_ h)
  split <;> simp [mapLtu]

theorem mergeTo_asc (s : State) (source : Address) (target : Instant) (k : Nat) :
    (s.mergeTo source target k).asc = (s.shiftTimeSchedule k).asc := by
  unfold mergeTo
  dsimp only
  split
  · rfl
  · rw [boundary_asc]
    rfl

/-- R62: no leap loses or doubles a slot. -/
theorem leap_slots {c : Option Instr} (l : Leap c s t) (h : s.SlotsPartitioned) : t.SlotsPartitioned := by
  cases l with
  | pinReset => exact reset_slotsPartitioned
  | restart => exact reset_slotsPartitioned
  | advance => exact advance_slots h
  | selfStart => exact slots_of_asc (startSelf_asc s) h
  | join _ _ source target => exact slots_of_asc (adoptInListen_asc s source target) h
  | forward _ _ source target => exact adoptForward_slots h source target
  | merge _ _ source target k => exact slots_of_asc (mergeTo_asc s source target k) (shiftTimeSchedule_slots s k h)
  | _ => exact h

/-- Settles O57: every move and every leap keeps each slot in one place. -/
theorem stepKeepsSlotsPartitioned : Obligations.StepKeepsSlotsPartitioned := fun _ _ h e =>
  step_keeps (P := SlotsPartitioned) (fun _ _ _ m => move_slots m) (fun _ _ _ l => leap_slots l) e h

end Sys2Proof.Machine.State
end

section
/-! Line time (R1, R3, R11, R18, R21, R150): no move touches it, and every leap keeps its sound state. -/

namespace Sys2Proof.Machine.State

variable {s t : State}

/-! ### Moves -/

/-- Line time is as it was: the run state, the sync state, the line instant and the parameters, and all of the LTU's
record but the beacon slot and the mark of the tick. -/
def LineTimeStands (s t : State) : Prop :=
  t.cfl.run = s.cfl.run ∧ ∃ slot ticked, t.ltu = { s.ltu with slot := slot, ticked := ticked }

theorem LineTimeStands.refl (s : State) : LineTimeStands s s := ⟨rfl, s.ltu.slot, s.ltu.ticked, rfl⟩

theorem LineTimeStands.of_eq (hc : t.cfl = s.cfl) (hl : t.ltu = s.ltu) : LineTimeStands s t := by
  unfold LineTimeStands
  rw [hc, hl]
  exact LineTimeStands.refl s

theorem move_lineTimeStands {k : Nat} (m : Move k s t) : LineTimeStands s t := by
  cases m with
  | sends _ l x slot => exact ⟨rfl, slot, s.ltu.ticked, rfl⟩
  | ends _ l x slot => exact ⟨rfl, slot, s.ltu.ticked, rfl⟩
  | ticked _ b => exact ⟨rfl, s.ltu.slot, b, rfl⟩
  | cancelAll => exact .of_eq (cancelAll_cfl s) (cancelAll_ltu s)
  | onTimeExpiry _ n => exact .of_eq (expireOnTime_cfl s n) (expireOnTime_ltu s n)
  | edge _ n r _ => exact .of_eq (acceptEdge_cfl s n r) (acceptEdge_ltu s n r)
  | mark _ a ch q cl ph => exact .of_eq (receiveMark_cfl s a ch q cl ph) (receiveMark_ltu s a ch q cl ph)
  | loader _ c h => exact ⟨h, s.ltu.slot, s.ltu.ticked, rfl⟩
  | _ => exact .refl s

end Sys2Proof.Machine.State
end

section
/-! The LTU's record after each leap of line time (R6, R9, R16, R17, R22), field by field. -/

namespace Sys2Proof.Machine.State

variable (s : State) (source : Address) (target : Instant)

/-- R13: what a withdrawal leaves in the beacon slot. -/
def withdrawn (slot : BeaconSlot) : BeaconSlot := if slot = .offered then .empty else slot

/-- R16, R19: the jump of a forward adoption, before its boundary and its catch-up. -/
def jumped : State := (s.adoptionEffects source).mapLtu fun l => { l with hold := 0, instant := target }

theorem adoptForward_eq : s.adoptForward source target = timePass
    (if target.cycle = s.now.cycle then s.jumped source target
      else (s.jumped source target).boundary false target.cycle) := rfl

@[simp] theorem jumped_sbs : (s.jumped source target).sbs = s.sbs := rfl
@[simp] theorem jumped_mku : (s.jumped source target).mku = s.mku := rfl
@[simp] theorem jumped_asc : (s.jumped source target).asc = s.asc := rfl
@[simp] theorem jumped_dcu : (s.jumped source target).dcu = s.dcu := rfl
@[simp] theorem jumped_tvu : (s.jumped source target).tvu = s.tvu := rfl
@[simp] theorem jumped_llu : (s.jumped source target).llu = s.llu := rfl
@[simp] theorem jumped_lpi : (s.jumped source target).lpi = s.lpi := rfl
@[simp] theorem jumped_cfl : (s.jumped source target).cfl = s.cfl := rfl

/-- R22, R23: the jump of a merge with the shift of the timeline, before its boundary. -/
def merged (k : Nat) : State :=
  State.shiftTimeline ((((s.withdraw).setFlag .merge).count .merges).mapLtu fun l => { l with
    instant := target, hold := 0, streak := 0, leadStray := false, adopted := false, lastSource := some source }) k target

theorem mergeTo_eq (k : Nat) : s.mergeTo source target k = if target.cycle = s.now.cycle then s.merged source target k
    else (s.merged source target k).boundary false target.cycle := rfl

@[simp] theorem merged_sbs (k : Nat) : (s.merged source target k).sbs = s.sbs := rfl
@[simp] theorem merged_mku (k : Nat) : (s.merged source target k).mku = (s.shiftQueue k).mku := rfl
@[simp] theorem merged_asc (k : Nat) : (s.merged source target k).asc = (s.shiftTimeSchedule k).asc := rfl
@[simp] theorem merged_dcu (k : Nat) : (s.merged source target k).dcu = s.dcu := rfl
@[simp] theorem merged_tvu (k : Nat) : (s.merged source target k).tvu = (s.historyRestart target.cycle).tvu := rfl
@[simp] theorem merged_llu (k : Nat) : (s.merged source target k).llu = (s.shiftRecords k).llu := rfl
@[simp] theorem merged_lpi (k : Nat) : (s.merged source target k).lpi = s.lpi := rfl
@[simp] theorem merged_fru (k : Nat) : (s.merged source target k).fru = ((s.setFlag .merge).count .merges).fru := rfl
@[simp] theorem merged_cfl (k : Nat) : (s.merged source target k).cfl = s.cfl := rfl

theorem startSelf_ltu : s.startSelf.ltu = { s.ltu with
    sync := .locked, instant := { cycle := 0#32, phase := 0 }, listenCount := 0, streak := 0, leadStray := false
    adopted := false, slot := if s.muted then s.ltu.slot else .offered } := by
  unfold startSelf
  rw [boundary_ltu]
  simp [mapLtu]

theorem adoptInListen_ltu : (s.adoptInListen source target).ltu = { s.ltu with
    instant := target, sync := .locked, listenCount := 0, lastSource := some source, streak := 0, leadStray := false
    adopted := false } := by
  unfold adoptInListen
  rw [boundary_ltu]
  simp [mapLtu]

theorem adoptForward_ltu : (s.adoptForward source target).ltu = { s.ltu with
    instant := target, hold := 0, streak := 0, lastSource := some source, slot := withdrawn s.ltu.slot
    adopted := decide (target.cycle = s.now.cycle)
    leadStray := s.ltu.leadStray && decide (target.cycle = s.now.cycle) } := by
  rw [adoptForward_eq, timePass_ltu]
  by_cases h : target.cycle = s.now.cycle
  · simp [h, jumped, adoptionEffects, withdraw, withdrawn, mapLtu]
  · simp [h, jumped, boundary_ltu, adoptionEffects, withdraw, withdrawn, mapLtu]

theorem adoptBackward_ltu (k : Nat) : (s.adoptBackward source k).ltu = { s.ltu with
    hold := k, streak := 0, adopted := true, lastSource := some source, slot := withdrawn s.ltu.slot } := rfl

theorem mergeTo_ltu (k : Nat) : (s.mergeTo source target k).ltu = { s.ltu with
    instant := target, hold := 0, streak := 0, leadStray := false, adopted := false, lastSource := some source
    slot := withdrawn s.ltu.slot } := by
  rw [mergeTo_eq]
  by_cases h : target.cycle = s.now.cycle
  · simp [h, merged, withdraw, withdrawn, mapLtu]
  · simp [h, merged, boundary_ltu, withdraw, withdrawn, mapLtu]

/-- R4: a leap of line time in LOCKED stays there. -/
@[simp] theorem advance_locked : s.advance.locked = s.locked := by
  unfold advance
  split
  · rfl
  · simp [locked, running, expireCycle_ltu]

@[simp] theorem adoptForward_locked : (s.adoptForward source target).locked = s.locked := by
  simp [locked, running, adoptForward_ltu]

@[simp] theorem mergeTo_locked (k : Nat) : (s.mergeTo source target k).locked = s.locked := by
  simp [locked, running, mergeTo_ltu]

theorem withdrawn_sending (slot : BeaconSlot) : withdrawn slot = .sending ↔ slot = .sending := by
  cases slot <;> simp [withdrawn]

theorem slotAfterExpiry_sending (muted : Bool) (slot : BeaconSlot) :
    slotAfterExpiry muted slot = .sending ↔ slot = .sending := by
  cases muted <;> cases slot <;> simp [slotAfterExpiry]

/-! ### What the leaps leave of the LPI -/

/-- The transmission goes on, and a mute may end (R153). -/
def WireStands (s t : State) : Prop :=
  t.lpi.transmission = s.lpi.transmission ∧ (t.lpi.state = s.lpi.state ∨ t.lpi.state = .active)

variable {s}

theorem boundary_wireStands {u : State} (h : u.lpi = s.lpi) (byExpiry : Bool) (c : Word) :
    WireStands s (u.boundary byExpiry c) :=
  ⟨by rw [boundary_transmission, h], by rw [← h]; exact boundary_state u byExpiry c⟩

theorem wireStands_iff {t u : State} (h : t.lpi = u.lpi) : WireStands s t ↔ WireStands s u := by
  unfold WireStands
  rw [h]

theorem advance_wireStands : WireStands s s.advance := by
  unfold advance
  split
  · exact ⟨rfl, .inl rfl⟩
  · exact boundary_wireStands (s := s) (u := s.mapLtu _) rfl _ _

theorem startSelf_wireStands : WireStands s s.startSelf := boundary_wireStands (s := s) (u := s.mapLtu _) rfl _ _

theorem adoptInListen_wireStands : WireStands s (s.adoptInListen source target) :=
  boundary_wireStands (s := s) (u := s.mapLtu _) rfl _ _

theorem adoptForward_wireStands : WireStands s (s.adoptForward source target) := by
  rw [adoptForward_eq, wireStands_iff (timePass_lpi _)]
  split
  · exact ⟨rfl, .inl rfl⟩
  · exact boundary_wireStands (jumped_lpi s source target) _ _

theorem mergeTo_wireStands (k : Nat) : WireStands s (s.mergeTo source target k) := by
  rw [mergeTo_eq]
  split
  · exact ⟨rfl, .inl rfl⟩
  · exact boundary_wireStands (merged_lpi s source target k) _ _

end Sys2Proof.Machine.State
end

section
/-! The sound state of line time (R1, R3, R11, R18, R21, R150, R179): what keeps it, the moves and the leaps. -/

namespace Sys2Proof.Machine

/-! ### Images that pass their checks (R184) -/

/-- R184: an image without a failing check passes every check. -/
theorem Image.checks_of_haltCode {img : List Byte} (h : Image.haltCode img = 0) :
    Image.parametersInRange img = true ∧ Image.linesFit img = true ∧ Image.mapFits img = true ∧
      Image.namedTemplates img Template.orderingHolds = true ∧
      Image.namedTemplates img (fun t => t.linesAreDrive (Image.functionOf img)) = true := by
  unfold Image.haltCode at h
  split_ifs at h with h2 h3 h4 h5 h6 h7 h8 h9
  simp_all

namespace State

variable {s t : State}

/-! ### What keeps it -/

/-- Line time of a station that is not running, with nothing on the wire. -/
theorem timeSound_of_reset (hrun : t.cfl.run = .configuring) (hl : t.ltu = Ltu.reset) (hs : t.lpi.state = .silent)
    (hn : t.lpi.transmission = none) : t.TimeSound := by
  refine ⟨?_, ?_, fun _ => hl, ?_, ?_, ?_, ?_⟩
  · simp [TransmitFitsRun, hrun, hs]
  · simp [ParametersFit, hrun]
  · simp [PhaseFits, hrun]
  · simp [StreakFits, hrun]
  · simp [HoldFits, hl, Ltu.reset]
  · simp [SlotFitsWire, hl, hn, Ltu.reset]

theorem transmitFitsRun_of (hr : t.cfl.run = s.cfl.run)
    (hs : t.lpi.state = s.lpi.state ∨ (s.lpi.state.up ∧ t.lpi.state.up)) (h : s.TransmitFitsRun) :
    t.TransmitFitsRun := by
  unfold TransmitFitsRun at *
  rw [hr]
  cases hrun : s.cfl.run <;> rw [hrun] at h <;> dsimp only at h ⊢
  all_goals obtain hs | ⟨h1, h2⟩ := hs
  · rw [hs, h]
  · rw [h] at h1; rcases h1 with h1 | h1 <;> cases h1
  · rw [hs, h]
  · rw [h] at h1; rcases h1 with h1 | h1 <;> cases h1
  · rwa [hs]
  · exact h2

/-- A change of the slot, the mark of the tick and the LPI. -/
theorem timeSound_of_slot (h : s.TimeSound) (hl : LineTimeStands s t)
    (hs : t.lpi.state = s.lpi.state ∨ (s.lpi.state.up ∧ t.lpi.state.up))
    (hidle : s.cfl.run ≠ .running → t.ltu = s.ltu) (hslot : t.ltu.slot = s.ltu.slot ∨
      (s.ltu.sync = .locked ∧ s.ltu.hold = 0)) (hw : t.SlotFitsWire) : t.TimeSound := by
  obtain ⟨h1, h2, h3, h4, h5, ⟨h6, h7, h8⟩, -⟩ := h
  obtain ⟨hr, slot, ticked, e⟩ := hl
  have hper : t.period = s.period := by simp [period, e]
  have hwin : t.window = s.window := by simp [window, e]
  have hlim : t.strayLimit = s.strayLimit := by simp [strayLimit, e]
  refine ⟨transmitFitsRun_of hr hs h1, ?_, fun hn => ?_, ?_, ?_, ⟨?_, fun hh => ?_, fun hy => ?_⟩, hw⟩
  · unfold ParametersFit at *
    rwa [hr, e]
  · rw [hr] at hn
    rw [hidle hn, h3 hn]
  · unfold PhaseFits now at *
    rwa [hr, hper, e]
  · unfold StreakFits at *
    rwa [hr, hlim, e]
  · rwa [hwin, e]
  · rw [e] at hh
    obtain h0 | ⟨-, h0⟩ := hslot
    · rw [h0, h7 hh]
    · exact absurd hh (by simp [h0])
  · rw [e] at hy
    obtain h0 | ⟨h0, -⟩ := hslot
    · rw [h0, e]; exact h8 hy
    · exact absurd (h0.symm.trans hy) (by simp)

/-- Neither line time nor the wire is touched. -/
theorem timeSound_of_same (h : s.TimeSound) (hc : t.cfl.run = s.cfl.run) (hl : t.ltu = s.ltu) (hp : t.lpi = s.lpi) :
    t.TimeSound :=
  timeSound_of_slot h ⟨hc, s.ltu.slot, s.ltu.ticked, hl⟩ (.inl (by rw [hp])) (fun _ => hl) (.inl (by rw [hl])) (by
    unfold SlotFitsWire
    rw [hp, hl]
    exact h.2.2.2.2.2.2)

/-! ### The moves -/

/-- Where a beacon is offered or on the wire the station is RUNNING and LOCKED, in no hold. -/
theorem locked_of_slot (h : s.TimeSound) (hs : s.ltu.slot ≠ .empty) :
    s.cfl.run = .running ∧ s.ltu.sync = .locked ∧ s.ltu.hold = 0 := by
  obtain ⟨-, -, h3, -, -, ⟨-, h7, h8⟩, -⟩ := h
  refine ⟨?_, ?_, ?_⟩
  · by_contra hn
    exact hs (by rw [h3 hn]; rfl)
  · cases hy : s.ltu.sync with
    | listen => exact absurd (h8 hy).2 hs
    | locked => rfl
  · by_contra hn
    exact hs (h7 (Nat.pos_of_ne_zero hn))

/-- R11, R140: no move parts the beacon slot from the wire, or touches line time. -/
theorem move_timeSound {k : Nat} (m : Move k s t) (h : s.TimeSound) : t.TimeSound := by
  have hstands := move_lineTimeStands m
  have hwire : s.SlotFitsWire := h.2.2.2.2.2.2
  cases m with
  | wire _ l hc hs =>
    exact timeSound_of_slot h hstands hs (fun _ => rfl) (.inl rfl) (by unfold SlotFitsWire at *; rwa [hc])
  | sends _ l x slot hn hx hs hslot =>
    have hne : s.ltu.slot ≠ .sending := fun e => by simpa [hn] using hwire.1 e
    obtain ⟨hb, ho, rfl⟩ | ⟨hb, rfl⟩ := hslot
    · obtain ⟨hr, hy, hh⟩ := locked_of_slot h (by simp [ho])
      exact timeSound_of_slot h hstands (.inl hs) (fun e => absurd hr e) (.inr ⟨hy, hh⟩) (by simp [SlotFitsWire, hx, hb])
    · exact timeSound_of_slot h hstands (.inl hs) (fun _ => rfl) (.inl rfl) (by simp [SlotFitsWire, hx, hb, hne])
  | ends _ l x slot hx hn hs hslot =>
    obtain ⟨hb, ho⟩ | ⟨hb, rfl⟩ := hslot
    · have hsend : s.ltu.slot = .sending := hwire.2 (by simp [hx, hb])
      obtain ⟨hr, hy, hh⟩ := locked_of_slot h (by simp [hsend])
      exact timeSound_of_slot h hstands (.inl hs) (fun e => absurd hr e) (.inr ⟨hy, hh⟩) (by simp [SlotFitsWire, hn, ho])
    · have hne : s.ltu.slot ≠ .sending := fun e => hb (by simpa [hx] using hwire.1 e)
      exact timeSound_of_slot h hstands (.inl hs) (fun _ => rfl) (.inl rfl) (by simp [SlotFitsWire, hn, hne])
  | ticked _ b hr =>
    exact timeSound_of_slot h hstands (.inl rfl) (fun e => absurd (by simpa [running] using hr) e) (.inl rfl) hwire
  | edge _ n r _ => exact timeSound_of_same h (by simp) (by simp) (by simp)
  | mark _ a ch q cl ph => exact timeSound_of_same h (by simp) (by simp) (by simp)
  | cancelAll => exact timeSound_of_same h (by simp) (by simp) (by simp)
  | onTimeExpiry _ n => exact timeSound_of_same h (by simp) (by simp) (by simp)
  | loader _ c hc => exact timeSound_of_same h hc rfl rfl
  | _ => exact timeSound_of_same h rfl rfl rfl

end State
end Sys2Proof.Machine
end

section
/-! Line time is kept by every leap (R9, R16, R17, R22), LOCKED lasts (R4), and the instant never goes back (R18). -/

namespace Sys2Proof.Machine.State

variable {s t : State} {c : Option Instr}

theorem run_of_locked (h : s.locked = true) : s.cfl.run = .running ∧ s.ltu.sync = .locked := by
  simpa [locked, running] using h

theorem run_of_listening (h : s.listening = true) : s.cfl.run = .running ∧ s.ltu.sync = .listen := by
  simpa [listening, running] using h

/-- A change of line time in a RUNNING station that keeps its parameters. -/
theorem timeSound_of_running (h : s.TimeSound) (hrun : s.cfl.run = .running) (hc : t.cfl = s.cfl)
    (hw : WireStands s t) (hp : t.ltu.params = s.ltu.params) (hphase : t.now.phase < s.period)
    (hstreak : t.ltu.streak ≤ s.strayLimit ∧ (t.ltu.leadStray = true → t.ltu.streak < s.strayLimit))
    (hhold : t.ltu.hold ≤ s.window ∧ (0 < t.ltu.hold → t.ltu.slot = .empty) ∧
      (t.ltu.sync = .listen → t.ltu.hold = 0 ∧ t.ltu.slot = .empty))
    (hslot : t.ltu.slot = .sending ↔ s.ltu.slot = .sending) : t.TimeSound := by
  obtain ⟨h1, h2, -, -, -, -, h7⟩ := h
  have hr : t.cfl.run = .running := by rw [hc, hrun]
  have hper : t.period = s.period := by simp [period, hp]
  have hwin : t.window = s.window := by simp [window, hp]
  have hlim : t.strayLimit = s.strayLimit := by simp [strayLimit, hp]
  refine ⟨transmitFitsRun_of (by rw [hc]) ?_ h1, fun _ => ?_, fun hn => absurd hr hn, fun _ => by rwa [hper],
    fun _ => by rwa [hlim], by unfold HoldFits; rwa [hwin], ?_⟩
  · obtain hw | hw := hw.2
    · exact .inl hw
    · exact .inr ⟨by simpa [TransmitFitsRun, TransmitState.up, hrun] using h1, .inl hw⟩
  · rw [hp]
    exact h2 hrun
  · unfold SlotFitsWire at *
    rw [hslot, h7, hw.1]

theorem period_pos (h : s.TimeSound) (hrun : s.cfl.run = .running) : 1000 ≤ s.period ∧ 4 * s.window ≤ s.period := by
  obtain ⟨p, hp, h1, -, -, h2, -⟩ := h.2.1 hrun
  simp only [period, window, hp, Option.map_some, Option.getD_some]
  omega

theorem phase_lt (h : s.TimeSound) (hrun : s.cfl.run = .running) : s.now.phase < s.period := h.2.2.2.1 hrun

theorem streak_fits (h : s.TimeSound) (hrun : s.cfl.run = .running) :
    s.ltu.streak ≤ s.strayLimit ∧ (s.ltu.leadStray = true → s.ltu.streak < s.strayLimit) := h.2.2.2.2.1 hrun

theorem hold_fits (h : s.TimeSound) : s.HoldFits := h.2.2.2.2.2.1

theorem withdrawn_of_silent (h : s.TimeSound) (hn : s.lpi.transmission = none) : withdrawn s.ltu.slot = .empty := by
  have hne : s.ltu.slot ≠ .sending := fun e => by simpa [hn] using h.2.2.2.2.2.2.1 e
  cases hs : s.ltu.slot <;> simp_all [withdrawn]

theorem advance_timeSound (h : s.TimeSound) (hl : s.locked = true) (hh : s.ltu.hold = 0) : s.advance.TimeSound := by
  obtain ⟨hrun, hsync⟩ := run_of_locked hl
  have hhold := hold_fits h
  have hstreak := streak_fits h hrun
  refine timeSound_of_running h hrun (advance_cfl s) advance_wireStands ?_ ?_ ?_ ?_ ?_
  all_goals unfold advance; split
  · rfl
  · rw [expireCycle_ltu]
  · assumption
  · unfold now; rw [expireCycle_ltu]; have := (period_pos h hrun).1; dsimp only; omega
  · exact hstreak
  · rw [expireCycle_ltu]
    obtain ⟨h1, h2⟩ := hstreak
    refine ⟨?_, by simp⟩
    dsimp only
    split
    · next hk => exact h2 (by simp only [Bool.and_eq_true] at hk; exact hk.1)
    · omega
  · exact hhold
  · rw [expireCycle_ltu]
    simp [hh, hsync]
  · exact Iff.rfl
  · rw [expireCycle_ltu]
    exact slotAfterExpiry_sending _ _

theorem enterRunning_timeSound (h : s.TimeSound) (hrun : s.cfl.run = .configuring) {img : List Byte} {pins : BitVec 8}
    (hc : Image.haltCode img = 0) : (s.enterRunning img pins).TimeSound := by
  have hreset : s.ltu = Ltu.reset := h.2.2.1 (by simp [hrun])
  have hl : (s.enterRunning img pins).ltu = { Ltu.reset with params := some (Image.timeParams img), ticked := true } := by
    rw [← hreset]; rfl
  obtain ⟨⟨p1, p2⟩, ⟨p3, p4⟩, -, ⟨p5, p6⟩, -⟩ := Image.parametersInRange_iff.1 (Image.checks_of_haltCode hc).1
  have hn : s.lpi.transmission.map Transmission.candidate ≠ some .beacon := fun e => by
    have := h.2.2.2.2.2.2.2 e
    simp [hreset, Ltu.reset] at this
  refine ⟨.inl rfl, fun _ => ⟨_, by rw [hl], p1, p2, p3, p4, p5, p6⟩, fun hne => absurd rfl hne, fun _ => ?_, fun _ => ?_,
    ?_, ?_⟩
  · simp only [now, period, hl, Ltu.reset, Option.map_some, Option.getD_some]
    omega
  · simp [strayLimit, hl, Ltu.reset]
  · simp [HoldFits, window, hl, Ltu.reset]
  · rw [SlotFitsWire, hl]
    simp only [Ltu.reset, reduceCtorEq, false_iff]
    exact hn

/-- Every leap keeps the sound state of line time. -/
theorem leap_timeSound (l : Leap c s t) (h : s.TimeSound) : t.TimeSound := by
  have hphase := phase_lt h
  have hstreak := streak_fits h
  have hhold := hold_fits h
  cases l with
  | pinReset => exact timeSound_of_reset rfl rfl rfl rfl
  | restart => exact timeSound_of_reset rfl rfl rfl rfl
  | halt _ _ code hrun =>
    have hreset : s.ltu = Ltu.reset := h.2.2.1 (by simp [hrun])
    have hne : (s.enterHalted code).cfl.run ≠ .running := by simp [enterHalted]
    exact ⟨rfl, fun e => absurd e hne, fun _ => hreset, fun e => absurd e hne, fun e => absurd e hne, hhold,
      h.2.2.2.2.2.2⟩
  | run _ _ img pins hrun hc => exact enterRunning_timeSound h hrun hc
  | wrap _ _ hl =>
    obtain ⟨hrun, hsync⟩ := run_of_listening hl
    exact timeSound_of_running h hrun rfl ⟨rfl, .inl rfl⟩ rfl (Nat.lt_of_lt_of_le (show 0 < 1000 by decide) (period_pos h hrun).1)
      (hstreak hrun) hhold Iff.rfl
  | listen _ _ hl hp =>
    obtain ⟨hrun, hsync⟩ := run_of_listening hl
    exact timeSound_of_running h hrun rfl ⟨rfl, .inl rfl⟩ rfl (Nat.not_le.1 (of_decide_eq_false hp))
      (hstreak hrun) hhold Iff.rfl
  | selfStart _ _ hl =>
    obtain ⟨hrun, hsync⟩ := run_of_listening hl
    obtain ⟨h0, he⟩ := hhold.2.2 hsync
    refine timeSound_of_running h hrun (startSelf_cfl s) startSelf_wireStands ?_ ?_ ?_ ?_ ?_
    · rw [startSelf_ltu]
    · rw [now, startSelf_ltu]; exact Nat.lt_of_lt_of_le (show 0 < 1000 by decide) (period_pos h hrun).1
    · rw [startSelf_ltu]; simp
    · rw [startSelf_ltu]; simp [h0]
    · rw [startSelf_ltu, he]; split <;> simp
  | hold _ _ hl hh =>
    obtain ⟨hrun, hsync⟩ := run_of_locked hl
    obtain ⟨h1, h2, -⟩ := hhold
    refine timeSound_of_running h hrun rfl ⟨rfl, .inl rfl⟩ rfl (hphase hrun) (hstreak hrun)
      ⟨Nat.le_trans (Nat.sub_le _ _) h1, fun _ => h2 hh, fun e => absurd (hsync.symm.trans e) (by simp)⟩ Iff.rfl
  | advance _ _ hl hh => exact advance_timeSound h hl hh
  | join _ _ source target hl ht =>
    obtain ⟨hrun, hsync⟩ := run_of_listening hl
    obtain ⟨h0, he⟩ := hhold.2.2 hsync
    refine timeSound_of_running h hrun (adoptInListen_cfl s _ _) (adoptInListen_wireStands _ _) ?_ ?_ ?_ ?_ ?_
    · rw [adoptInListen_ltu]
    · rwa [now, adoptInListen_ltu]
    · rw [adoptInListen_ltu]; simp
    · rw [adoptInListen_ltu]; simp [h0]
    · rw [adoptInListen_ltu]
  | forward _ _ source target hl ht _ _ =>
    obtain ⟨hrun, hsync⟩ := run_of_locked hl
    obtain ⟨h1, h2⟩ := hstreak hrun
    refine timeSound_of_running h hrun (adoptForward_cfl s _ _) (adoptForward_wireStands _ _) ?_ ?_ ?_ ?_ ?_
    · rw [adoptForward_ltu]
    · rwa [now, adoptForward_ltu]
    · rw [adoptForward_ltu]
      refine ⟨Nat.zero_le _, fun e => ?_⟩
      simp only [Bool.and_eq_true] at e
      have := h2 e.1
      dsimp only
      omega
    · rw [adoptForward_ltu]; simp [hsync]
    · rw [adoptForward_ltu]; exact withdrawn_sending _
  | backward _ _ source k hl hk hn =>
    obtain ⟨hrun, hsync⟩ := run_of_locked hl
    obtain ⟨h1, h2⟩ := hstreak hrun
    refine timeSound_of_running h hrun rfl ⟨rfl, .inl rfl⟩ rfl (hphase hrun) ⟨Nat.zero_le _, fun e => ?_⟩
      ⟨hk, fun _ => withdrawn_of_silent h hn, fun e => absurd (hsync.symm.trans e) (by simp)⟩ (withdrawn_sending _)
    exact Nat.zero_lt_of_lt (h2 e)
  | lead _ _ hl hk =>
    obtain ⟨hrun, hsync⟩ := run_of_locked hl
    exact timeSound_of_running h hrun rfl ⟨rfl, .inl rfl⟩ rfl (hphase hrun)
      ⟨(hstreak hrun).1, fun _ => hk⟩ hhold Iff.rfl
  | merge _ _ source target k hl ht hd hw =>
    obtain ⟨hrun, hsync⟩ := run_of_locked hl
    refine timeSound_of_running h hrun (mergeTo_cfl s _ _ _) (mergeTo_wireStands _ _ _) ?_ ?_ ?_ ?_ ?_
    · rw [mergeTo_ltu]
    · rwa [now, mergeTo_ltu]
    · rw [mergeTo_ltu]; simp
    · rw [mergeTo_ltu]; simp [hsync]
    · rw [mergeTo_ltu]; exact withdrawn_sending _

/-! ### LOCKED lasts, and the instant goes on -/

theorem LineTimeStands.trans {u : State} (h : LineTimeStands s t) (g : LineTimeStands t u) : LineTimeStands s u := by
  obtain ⟨h1, a, b, h2⟩ := h
  obtain ⟨g1, a', b', g2⟩ := g
  exact ⟨g1.trans h1, a', b', by rw [g2, h2]⟩

theorem moves_lineTimeStands {k : Nat} (h : Moves k s t) : LineTimeStands s t :=
  h.keeps (P := LineTimeStands s) (fun _ _ _ m g => g.trans (move_lineTimeStands m)) (.refl s)

theorem LineTimeStands.locked (h : LineTimeStands s t) : t.locked = s.locked := by
  obtain ⟨h1, _, _, h2⟩ := h
  simp [State.locked, State.running, h1, h2]

theorem LineTimeStands.now (h : LineTimeStands s t) : t.now = s.now := by
  obtain ⟨-, _, _, h2⟩ := h
  simp [State.now, h2]

theorem LineTimeStands.period (h : LineTimeStands s t) : t.period = s.period := by
  obtain ⟨-, _, _, h2⟩ := h
  simp [State.period, h2]

@[simp] theorem distance_self (p : Nat) (i : Instant) : Instant.distance p i i = 0 := by simp [Instant.distance]

/-- The period of a station whose parameters stand. -/
theorem period_of_params (h : t.ltu.params = s.ltu.params) : t.period = s.period := by simp [period, h]

/-- R8, R9: an advance of a LOCKED station goes one tick on, and in an expiry to the start of the next cycle. -/
theorem advance_distance (h : s.TimeSound) (hl : s.locked = true) :
    0 ≤ Instant.distance s.period s.now s.advance.now := by
  have hp := phase_lt h (run_of_locked hl).1
  unfold advance
  split
  · have e : s.advancePhase.now = { s.now with phase := s.now.phase + 1 } := rfl
    simp [e, Instant.distance]
  · have e : s.expireCycle.now = { cycle := s.now.cycle + 1#32, phase := 0 } := by rw [now, expireCycle_ltu]
    have h1 : (s.now.cycle + 1#32 - s.now.cycle).toInt = 1 := by
      rw [BitVec.add_comm, BitVec.add_sub_cancel]
      decide
    simp only [e, Instant.distance, h1]
    omega

/-- R4, R18: what a leap leaves of LOCKED, of its period and of its instant. -/
theorem leap_locked (l : Leap c s t) (h : s.TimeSound) (hl : s.locked = true) :
    (t.locked = true ∧ t.period = s.period ∧ 0 ≤ Instant.distance s.period s.now t.now) ∨
      (t.locked = false ∧ (c = some .pinReset ∨ ∃ source target tag start,
        c = some (.restart source target tag start))) := by
  obtain ⟨hrun, hsync⟩ := run_of_locked hl
  have hlisten : s.listening ≠ true := by simp [listening, running, hrun, hsync]
  cases l with
  | pinReset => exact .inr ⟨rfl, .inl rfl⟩
  | restart _ source target tag start => exact .inr ⟨rfl, .inr ⟨source, target, tag, start, rfl⟩⟩
  | halt _ _ code hc => simp [hrun] at hc
  | run _ _ img pins hc => simp [hrun] at hc
  | wrap _ _ hli => exact absurd hli hlisten
  | listen _ _ hli => exact absurd hli hlisten
  | selfStart _ _ hli => exact absurd hli hlisten
  | join _ _ source target hli => exact absurd hli hlisten
  | hold => exact .inl ⟨hl, rfl, by simp [now, holdTick, mapLtu]⟩
  | lead => exact .inl ⟨hl, rfl, by simp [now, mapLtu]⟩
  | backward _ _ source k =>
    exact .inl ⟨hl, rfl, (distance_self s.period s.now).ge⟩
  | advance _ _ _ hh =>
    refine .inl ⟨by rw [advance_locked, hl], period_of_params ?_, advance_distance h hl⟩
    unfold advance
    split
    · rfl
    · rw [expireCycle_ltu]
  | forward _ _ source target _ _ h0 =>
    refine .inl ⟨by rw [adoptForward_locked, hl], period_of_params ?_, ?_⟩
    · rw [adoptForward_ltu]
    · have e : (s.adoptForward source target).now = target := by rw [now, adoptForward_ltu]
      rw [e]
      exact h0.le
  | merge _ _ source target k _ _ hd =>
    refine .inl ⟨by rw [mergeTo_locked, hl], period_of_params ?_, ?_⟩
    · rw [mergeTo_ltu]
    · have e : (s.mergeTo source target k).now = target := by rw [now, mergeTo_ltu]
      rw [e, hd]
      exact Int.natCast_nonneg k

/-- Settles O59: the moves leave line time alone, and each leap is a case of its own. -/
theorem stepKeepsLineTimeSound : Obligations.StepKeepsLineTimeSound := by
  intro s t h e
  refine ⟨step_keeps (P := TimeSound) (fun _ _ _ m => move_timeSound m) (fun _ _ _ l => leap_timeSound l) e h, ?_⟩
  obtain ⟨u, hu, ht⟩ := step_goes e
  have hstands := moves_lineTimeStands hu
  have hsound : u.TimeSound := hu.keeps (P := TimeSound) (fun _ _ _ m => move_timeSound m) h
  have key : s.locked = true → (t.locked = true ∧ t.period = s.period ∧ 0 ≤ Instant.distance s.period s.now t.now) ∨
      (t.locked = false ∧ (s.pending.head? = some .pinReset ∨ ∃ source target tag start,
        s.pending.head? = some (.restart source target tag start))) := by
    intro hl
    rw [← hstands.now, ← hstands.period]
    obtain rfl | hleap := ht
    · exact .inl ⟨hstands.locked.trans hl, rfl, (distance_self t.period t.now).ge⟩
    · exact leap_locked hleap hsound (hstands.locked.trans hl)
  refine ⟨fun hl => ?_, fun hl htl => ?_⟩
  · obtain ⟨htl, -⟩ | ⟨-, hc⟩ := key hl
    · exact .inl htl
    · exact .inr hc
  · obtain ⟨-, hk⟩ | ⟨hf, -⟩ := key hl
    · exact hk
    · rw [hf] at htl
      cases htl

end Sys2Proof.Machine.State
end

section
/-! The travel history (R104, R110) and the mark-out queue (R47): what the moves and the leaps do to them. -/

namespace Sys2Proof.Machine.State

variable {s t u : State} {c : Option Instr}

/-! ### The history's append -/

/-- R110: the append of the present cycle or of the next one keeps the cycles consecutive. -/
theorem historyAppend_sound {cycle : Word} (hlen : s.tvu.history.length ≤ 16) (hcons : ConsecutiveCycles s.tvu.history)
    (hnext : ∀ x, s.tvu.history.getLast? = some x → cycle = x.cycle ∨ cycle = x.cycle + 1#32) :
    (s.historyAppend cycle).tvu.history.length ≤ 16 ∧ ConsecutiveCycles (s.historyAppend cycle).tvu.history ∧
      (s.historyAppend cycle).tvu.history.getLast?.map HistoryEntry.cycle = some cycle := by
  unfold historyAppend
  split
  · next h => exact ⟨hlen, hcons, h⟩
  · next h =>
    have hstep : ∀ x, s.tvu.history.getLast? = some x → cycle = x.cycle + 1#32 := by
      intro x hx
      refine (hnext x hx).resolve_left fun e => h ?_
      rw [hx, e]
      rfl
    dsimp only
    refine ⟨?_, ?_, by simp⟩
    · rw [List.length_append, List.length_singleton]
      split
      · rw [List.length_drop]; omega
      · next hp => have : ¬ 16 ≤ s.tvu.history.length := hp; omega
    · split
      · next hp =>
        have hp16 : 16 ≤ s.tvu.history.length := hp
        refine consecutive_append _ _ (consecutive_drop _ hcons) fun x hx => hstep x ?_
        rwa [List.getLast?_drop, if_neg (by omega)] at hx
      · exact consecutive_append _ _ hcons hstep

/-- A boundary for the present cycle or the next one leaves a sound history in LOCKED. -/
theorem historySound_of_append {cycle : Word} (hh : t.tvu.history = (s.historyAppend cycle).tvu.history)
    (hlen : s.tvu.history.length ≤ 16) (hcons : ConsecutiveCycles s.tvu.history)
    (hnext : ∀ x, s.tvu.history.getLast? = some x → cycle = x.cycle ∨ cycle = x.cycle + 1#32)
    (hl : t.locked = true) (hc : t.now.cycle = cycle) : t.HistorySound := by
  obtain ⟨h1, h2, h3⟩ := historyAppend_sound hlen hcons hnext
  refine ⟨by rw [hh]; exact h1, by rw [hh]; exact h2, fun _ => by rw [hh, hc]; exact h3, fun hf => ?_⟩
  rw [hl] at hf
  cases hf

/-- Neither the history nor the cycle nor LOCKED changes. -/
theorem historySound_of_same (h : s.HistorySound) (hh : t.tvu.history = s.tvu.history) (hl : t.locked = s.locked)
    (hc : t.now.cycle = s.now.cycle) : t.HistorySound := by
  unfold HistorySound at *
  rwa [hh, hl, hc]

/-! ### The moves -/

theorem countChange_history (s : State) (d : CountChange) : (s.countChange d).tvu.history = s.tvu.history := by
  cases d
  · simp [countChange]
  · simp [countChange]

/-- R115: an accepted edge moves no cycle of the history. -/
theorem acceptEdge_history (s : State) (n : LineId) (r : FilterRecord) :
    ∃ f : HistoryEntry → HistoryEntry, (∀ e, (f e).cycle = e.cycle) ∧
      (s.acceptEdge n r).tvu.history = s.tvu.history.map f := by
  have hid : ∃ f : HistoryEntry → HistoryEntry, (∀ e, (f e).cycle = e.cycle) ∧ s.tvu.history = s.tvu.history.map f :=
    ⟨id, fun _ => rfl, by simp⟩
  refine s.acceptEdge_keeps (P := fun t => ∃ f : HistoryEntry → HistoryEntry, (∀ e, (f e).cycle = e.cycle) ∧
    t.tvu.history = s.tvu.history.map f) n r hid ⟨HistoryEntry.rebase s.tvu.position, fun _ => rfl, rfl⟩
    (fun d _ => ?_) fun i p settings _ => ?_
  · rwa [countChange_history]
  · rwa [takeCapture_tvu]

theorem historySound_map {f : HistoryEntry → HistoryEntry} (hf : ∀ e, (f e).cycle = e.cycle) (h : s.HistorySound)
    (hh : t.tvu.history = s.tvu.history.map f) (hl : t.locked = s.locked) (hc : t.now.cycle = s.now.cycle) :
    t.HistorySound := by
  obtain ⟨h1, h2, h3, h4⟩ := h
  refine ⟨by rwa [hh, List.length_map], by rw [hh]; exact consecutive_map _ f hf h2, fun e => ?_, fun e => ?_⟩
  · rw [hh, hc, ← h3 (hl ▸ e), List.getLast?_map, Option.map_map]
    congr 1
    funext x
    exact hf x
  · rw [hh, h4 (hl ▸ e), List.map_nil]

/-- R110: no move parts the history from the present cycle. -/
theorem move_historySound {k : Nat} (m : Move k s t) (h : s.HistorySound) : t.HistorySound := by
  have hstands := move_lineTimeStands m
  have hl := hstands.locked
  have hc : t.now.cycle = s.now.cycle := by rw [hstands.now]
  cases m with
  | edge _ n r _ =>
    obtain ⟨f, hf, e⟩ := acceptEdge_history s n r
    exact historySound_map hf h e hl hc
  | mark _ a ch q cl ph => exact historySound_of_same h (by rw [receiveMark_tvu]) hl hc
  | _ => exact historySound_of_same h rfl hl hc

/-- R48: a full queue takes no capture. -/
theorem publishRoute_queueBounded (h : s.QueueBounded) (channel : Fin 8) (seq : Byte) (i : Instant) :
    (s.publishRoute channel seq i).QueueBounded := by
  unfold publishRoute
  split
  · next hq =>
    unfold QueueBounded
    simp only [List.length_append, List.length_singleton]
    omega
  · exact h

theorem queueBounded_of_mku (h : s.QueueBounded) (e : t.mku = s.mku) : t.QueueBounded := by
  unfold QueueBounded
  rwa [e]

theorem acceptEdge_queueBounded (h : s.QueueBounded) (n : LineId) (r : FilterRecord) :
    (s.acceptEdge n r).QueueBounded := by
  refine s.acceptEdge_keeps n r h h (fun d _ => queueBounded_of_mku (s := s) h (by rw [countChange_mku]; rfl))
    fun i p settings _ => ?_
  exact takeCapture_keeps (P := QueueBounded) settings i p (fun _ _ hu => hu)
    (fun u _ _ hu => queueBounded_of_mku hu (localRoute_mku u _ _ _ _))
    (fun _ _ _ hu => publishRoute_queueBounded hu _ _ _) h

/-- R47: no move brings more than 16 captures into the queue. -/
theorem move_queueBounded {k : Nat} (m : Move k s t) (h : s.QueueBounded) : t.QueueBounded := by
  cases m with
  | edge _ n r _ => exact acceptEdge_queueBounded h n r
  | mark _ a ch q cl ph => exact queueBounded_of_mku h (receiveMark_mku s a ch q cl ph)
  | headSent =>
    unfold QueueBounded at *
    rw [List.length_drop]
    omega
  | _ => exact h

/-! ### The leaps -/

/-- R16: an instant less than a period ahead lies in the present cycle or in the next one. -/
theorem cycle_of_near {p : Nat} {i j : Instant} (hi : i.phase < p) (hj : j.phase < p)
    (h0 : 0 < Instant.distance p i j) (hp : Instant.distance p i j < p) :
    j.cycle = i.cycle ∨ j.cycle = i.cycle + 1#32 := by
  unfold Instant.distance at h0 hp
  generalize hk : (j.cycle - i.cycle).toInt = k at h0 hp
  have hlow : 0 ≤ k := by
    by_contra hn
    have : k * (p : Int) ≤ -1 * p := Int.mul_le_mul_of_nonneg_right (by omega) (by omega)
    omega
  have hhigh : k ≤ 1 := by
    by_contra hn
    have : 2 * (p : Int) ≤ k * p := Int.mul_le_mul_of_nonneg_right (by omega) (by omega)
    omega
  obtain rfl | rfl : k = 0 ∨ k = 1 := by omega
  · have hd : j.cycle - i.cycle = 0#32 := BitVec.eq_of_toInt_eq (by rw [hk]; decide)
    exact .inl (sub_eq_zero.1 hd)
  · have hd : j.cycle - i.cycle = 1#32 := BitVec.eq_of_toInt_eq (by rw [hk]; decide)
    rw [← hd, BitVec.add_comm, BitVec.sub_add_cancel]
    exact .inr rfl

theorem boundary_history (h : u.tvu = s.tvu) (byExpiry : Bool) (cycle : Word) :
    (u.boundary byExpiry cycle).tvu.history = (s.historyAppend cycle).tvu.history := by
  rw [boundary_tvu, historyAppend_of_tvu cycle h]

theorem history_of_unlocked (h : s.HistorySound) (hl : s.locked = false) : s.tvu.history = [] := h.2.2.2 hl

theorem locked_of (hc : t.cfl.run = .running) (hs : t.ltu.sync = .locked) : t.locked = true := by
  simp [locked, running, hc, hs]

theorem unlocked_of_listening (h : s.listening = true) : s.locked = false := by
  obtain ⟨h1, h2⟩ := run_of_listening h
  simp [locked, h2]

/-- R110: the newest entry of a LOCKED station names the present cycle. -/
theorem newest_of_locked (h : s.HistorySound) (hl : s.locked = true) {x : HistoryEntry}
    (hx : s.tvu.history.getLast? = some x) : x.cycle = s.now.cycle := by
  have := h.2.2.1 hl
  rw [hx] at this
  exact Option.some.inj this

theorem advance_historySound (h : s.HistorySound) (hl : s.locked = true) : s.advance.HistorySound := by
  obtain ⟨hrun, hsync⟩ := run_of_locked hl
  unfold advance
  split
  · exact historySound_of_same h (by simp) (by simp [locked, advancePhase, running, mapLtu]) rfl
  · refine historySound_of_append (s := s) (boundary_history (s := s) (u := s.mapLtu _) rfl true _) h.1 h.2.1
      (fun x hx => .inr ?_) ?_ ?_
    · rw [newest_of_locked h hl hx]
    · simpa [locked, running, expireCycle_ltu] using ⟨hrun, hsync⟩
    · rw [now, expireCycle_ltu]

theorem adoptForward_historySound (ht : s.TimeSound) (h : s.HistorySound) (hl : s.locked = true) {source : Address}
    {target : Instant} (hp : target.phase < s.period) (h0 : 0 < Instant.distance s.period s.now target)
    (hw : Instant.distance s.period s.now target ≤ s.window) : (s.adoptForward source target).HistorySound := by
  obtain ⟨hrun, hsync⟩ := run_of_locked hl
  have hlocked : (s.adoptForward source target).locked = true := by rw [adoptForward_locked, hl]
  have hnow : (s.adoptForward source target).now = target := by rw [now, adoptForward_ltu]
  by_cases hc : target.cycle = s.now.cycle
  · refine historySound_of_same h ?_ (by rw [hlocked, hl]) (by rw [hnow, hc])
    rw [adoptForward_eq, if_pos hc, timePass_tvu, jumped_tvu]
  · refine historySound_of_append (s := s) (cycle := target.cycle) ?_ h.1 h.2.1 (fun x hx => ?_) hlocked (by rw [hnow])
    · rw [adoptForward_eq, if_neg hc, timePass_tvu]
      exact boundary_history (jumped_tvu s source target) false _
    · rw [newest_of_locked h hl hx]
      have := period_pos ht hrun
      exact cycle_of_near (phase_lt ht hrun) hp h0 (by omega)

theorem mergeTo_historySound (hl : s.locked = true) (source : Address) (target : Instant) (k : Nat) :
    (s.mergeTo source target k).HistorySound := by
  have hone : (s.mergeTo source target k).tvu.history = [{ cycle := target.cycle, position := s.tvu.position }] := by
    rw [mergeTo_eq]
    split
    · rfl
    · rw [boundary_tvu]
      unfold historyAppend
      rw [if_pos]
      · rfl
      · rfl
  refine ⟨by rw [hone]; simp [Config.historyPlaces], by rw [hone]; trivial, fun _ => ?_, fun hf => ?_⟩
  · rw [hone, now, mergeTo_ltu]
    rfl
  · rw [mergeTo_locked, hl] at hf
    cases hf

/-- An empty history, as every station has outside LOCKED. -/
theorem historySound_of_nil (hn : t.tvu.history = []) (hl : t.locked = false) : t.HistorySound :=
  ⟨by simp [hn], by rw [hn]; trivial, fun e => absurd (hl.symm.trans e) (by simp), fun _ => hn⟩

theorem unlocked_of_configuring (h : s.cfl.run = .configuring) : s.locked = false := by simp [locked, running, h]

/-- R104, R110, R111: every leap keeps the history sound. -/
theorem leap_historySound (l : Leap c s t) (ht : s.TimeSound) (h : s.HistorySound) : t.HistorySound := by
  cases l with
  | pinReset => exact historySound_of_nil rfl rfl
  | restart => exact historySound_of_nil rfl rfl
  | halt _ _ code hrun =>
    have hnil := history_of_unlocked h (unlocked_of_configuring hrun)
    exact historySound_of_nil hnil rfl
  | run _ _ img pins hrun hc =>
    have hidle : s.ltu = Ltu.reset := ht.2.2.1 (by simp [hrun])
    have hnil := history_of_unlocked h (unlocked_of_configuring hrun)
    refine historySound_of_nil hnil ?_
    simp [locked, enterRunning, hidle, Ltu.reset]
  | wrap _ _ hl => exact historySound_of_same h rfl rfl rfl
  | listen _ _ hl _ => exact historySound_of_same h rfl rfl rfl
  | selfStart _ _ hl =>
    have hnil := history_of_unlocked h (unlocked_of_listening hl)
    refine historySound_of_append (s := s) (boundary_history (s := s) (u := s.mapLtu _) rfl false _) h.1 h.2.1
      (fun x hx => by simp [hnil] at hx) (locked_of (by simpa using (run_of_listening hl).1) ?_) ?_
    · rw [startSelf_ltu]
    · rw [now, startSelf_ltu]
  | hold => exact historySound_of_same h rfl rfl rfl
  | advance _ _ hl _ => exact advance_historySound h hl
  | join _ _ source target hl _ =>
    have hnil := history_of_unlocked h (unlocked_of_listening hl)
    refine historySound_of_append (s := s) (boundary_history (s := s) (u := s.mapLtu _) rfl false _) h.1 h.2.1
      (fun x hx => by simp [hnil] at hx) (locked_of (by simpa using (run_of_listening hl).1) ?_) ?_
    · rw [adoptInListen_ltu]
    · rw [now, adoptInListen_ltu]
  | forward _ _ source target hl hp h0 hw => exact adoptForward_historySound ht h hl hp h0 hw
  | backward => exact historySound_of_same h rfl rfl rfl
  | lead => exact historySound_of_same h rfl rfl rfl
  | merge _ _ source target k hl => exact mergeTo_historySound hl source target k

/-- R47: no leap brings a capture into the queue. -/
theorem leap_queueBounded (l : Leap c s t) (h : s.QueueBounded) : t.QueueBounded := by
  cases l with
  | pinReset => exact Nat.zero_le _
  | restart => exact Nat.zero_le _
  | advance => exact queueBounded_of_mku h (advance_mku s)
  | selfStart => exact queueBounded_of_mku h (startSelf_mku s)
  | join _ _ source target => exact queueBounded_of_mku h (adoptInListen_mku s source target)
  | forward _ _ source target => exact queueBounded_of_mku h (adoptForward_mku s source target)
  | merge _ _ source target k =>
    have e : (s.mergeTo source target k).mku = (s.shiftQueue k).mku := by
      rw [mergeTo_eq]
      split
      · rfl
      · rw [boundary_mku]; rfl
    unfold QueueBounded at *
    rw [e]
    simpa [shiftQueue] using h
  | _ => exact h

/-- Settles O60: the history with the sound state of line time, and the queue by itself. -/
theorem stepKeepsHistoryConsecutive : Obligations.StepKeepsHistoryConsecutive := by
  intro s t ht hh hq e
  refine ⟨?_, step_keeps (P := QueueBounded) (fun _ _ _ m => move_queueBounded m) (fun _ _ _ l => leap_queueBounded l) e hq⟩
  exact (step_keeps (P := fun u => u.TimeSound ∧ u.HistorySound)
    (fun _ _ _ m h => ⟨move_timeSound m h.1, move_historySound m h.2⟩)
    (fun _ _ _ l h => ⟨leap_timeSound l h.1, leap_historySound l h.1 h.2⟩) e ⟨ht, hh⟩).2

end Sys2Proof.Machine.State
end

section
/-! What stands behind the actions (R29, R30): the templates that valid entries and pending actions name, and the
lines' functions. -/

namespace Sys2Proof.Machine

variable {δ : Type} {T : Fin 16 → Prop}

/-- The template of every action of a schedule is one of `T`. -/
def NamesIn (T : Fin 16 → Prop) (l : List (Action δ)) : Prop := ∀ a ∈ l, T a.template

theorem fireHead_namesIn {r : DomainRules δ} {templates : Table Template 16} {p : Pool δ} {a : Action δ}
    {rest : List (Action δ)} (h : NamesIn T p.schedule) (e : p.schedule = a :: rest) :
    NamesIn T (fireHead r templates a rest p).schedule := by
  rw [e] at h
  have hrest : NamesIn T rest := fun b hb => h b (List.mem_cons_of_mem _ hb)
  unfold fireHead
  dsimp only
  split
  · exact hrest
  · intro b hb
    rw [mem_fileAction] at hb
    obtain rfl | hb := hb
    · exact h a List.mem_cons_self
    · exact hrest b hb

theorem pass_namesIn {r : DomainRules δ} {templates : Table Template 16} {p : Pool δ} (h : NamesIn T p.schedule) :
    NamesIn T (p.pass r templates).schedule :=
  Pool.pass_keeps r templates (P := fun q => NamesIn T q.schedule) (fun _ _ _ hq e _ => fireHead_namesIn hq e) p h

theorem fileAction_namesIn {r : DomainRules δ} {a : Action δ} {l : List (Action δ)} (ha : T a.template)
    (h : NamesIn T l) : NamesIn T (fileAction r a l) := by
  intro b hb
  rw [mem_fileAction] at hb
  obtain rfl | hb := hb
  · exact ha
  · exact h b hb

namespace State

/-- The template of every valid entry and of every pending action is one of `T`. -/
def TemplatesIn (T : Fin 16 → Prop) (s : State) : Prop :=
  (∀ e, (s.entry e).valid = true → T (s.entry e).template) ∧ NamesIn T s.asc.time ∧ NamesIn T s.asc.travel

variable {s t u : State} {c : Option Instr}

theorem templatesIn_of_same (h : s.TemplatesIn T)
    (he : ∀ e, (t.entry e).valid = (s.entry e).valid ∧ (t.entry e).template = (s.entry e).template)
    (ha : t.asc = s.asc) : t.TemplatesIn T := by
  obtain ⟨h1, h2, h3⟩ := h
  refine ⟨fun e hv => ?_, by rwa [ha], by rwa [ha]⟩
  rw [(he e).2]
  exact h1 e ((he e).1 ▸ hv)

theorem templatesIn_of_eq (h : s.TemplatesIn T) (hb : t.sbs = s.sbs) (ha : t.asc = s.asc) : t.TemplatesIn T :=
  templatesIn_of_same h (fun e => by simp [entry, hb]) ha

theorem timePass_templatesIn (h : s.TemplatesIn T) : s.timePass.TemplatesIn T :=
  ⟨h.1, pass_namesIn (p := s.timePool) h.2.1, h.2.2⟩

theorem travelPass_templatesIn (h : s.TemplatesIn T) : s.travelPass.TemplatesIn T :=
  ⟨h.1, h.2.1, pass_namesIn (p := s.travelPool) h.2.2⟩

theorem cancelWhere_templatesIn (h : s.TemplatesIn T) (w : HeldSet → Bool) : (s.cancelWhere w).TemplatesIn T := by
  refine ⟨h.1, fun a ha => h.2.1 a ?_, fun a ha => h.2.2 a ?_⟩
  · change a ∈ (cancelList _ s.asc.time _ _).schedule at ha
    rw [cancelList_schedule] at ha
    exact List.mem_of_mem_filter ha
  · change a ∈ (cancelList _ s.asc.travel _ _).schedule at ha
    rw [cancelList_schedule] at ha
    exact List.mem_of_mem_filter ha

theorem tailTest_mem {a : Action Word} (ha : a ∈ s.tailTest.asc.travel) : a ∈ s.asc.travel := by
  unfold tailTest at ha
  split at ha
  · exact ha
  · next b e =>
    split at ha
    · obtain rfl | ha := List.mem_cons.1 ha
      · exact List.mem_of_getLast? e
      · exact List.mem_of_mem_dropLast ha
    · exact ha

theorem tailTest_time (s : State) : s.tailTest.asc.time = s.asc.time := by
  unfold tailTest
  split
  · rfl
  · split <;> rfl

theorem tailTest_templatesIn (h : s.TemplatesIn T) : s.tailTest.TemplatesIn T := by
  refine ⟨?_, ?_, fun a ha => h.2.2 a (tailTest_mem ha)⟩
  · simpa [entry] using h.1
  · rw [tailTest_time]; exact h.2.1

theorem countChange_templatesIn (h : s.TemplatesIn T) (d : CountChange) : (s.countChange d).TemplatesIn T := by
  cases d
  · exact travelPass_templatesIn (s := { s with tvu := _ }) h
  · exact travelPass_templatesIn (tailTest_templatesIn (s := { s with tvu := _ }) h)

theorem map_namesIn {l : List (Action δ)} {f : Action δ → Action δ} (hf : ∀ a, (f a).template = a.template)
    (h : NamesIn T l) : NamesIn T (l.map f) := by
  intro a ha
  obtain ⟨b, hb, rfl⟩ := List.mem_map.1 ha
  rw [hf]
  exact h b hb

theorem zeroRebase_templatesIn (h : s.TemplatesIn T) : s.zeroRebase.TemplatesIn T :=
  ⟨h.1, h.2.1, map_namesIn (fun _ => rfl) h.2.2⟩

theorem shiftTimeSchedule_templatesIn (h : s.TemplatesIn T) (k : Nat) : (s.shiftTimeSchedule k).TemplatesIn T :=
  ⟨h.1, map_namesIn (fun _ => rfl) h.2.1, h.2.2⟩

theorem admitTime_templatesIn (h : s.TemplatesIn T) (due : Instant) {k : Fin 16} (hk : T k) :
    (s.admitTime due k).TemplatesIn T := by
  have hfile : ∀ slot, NamesIn T (fileAction s.timeDomain (newAction slot due k) s.asc.time) :=
    fun slot => fileAction_namesIn hk h.2.1
  obtain e | e | ⟨slot, free, -, ⟨-, e⟩ | ⟨-, e⟩⟩ := s.admitTime_cases due k <;> rw [e]
  · exact h
  · exact h
  · exact ⟨h.1, hfile slot, h.2.2⟩
  · exact timePass_templatesIn ⟨h.1, hfile slot, h.2.2⟩

theorem admitTravel_templatesIn (h : s.TemplatesIn T) (due : Word) {k : Fin 16} (hk : T k) :
    (s.admitTravel due k).TemplatesIn T := by
  have hfile : ∀ slot, NamesIn T (fileAction s.travelDomain (newAction slot due k) s.asc.travel) :=
    fun slot => fileAction_namesIn hk h.2.2
  obtain e | e | ⟨slot, free, -, ⟨-, e⟩ | ⟨-, e⟩⟩ := s.admitTravel_cases due k <;> rw [e]
  · exact h
  · exact h
  · exact ⟨h.1, h.2.1, hfile slot⟩
  · exact travelPass_templatesIn ⟨h.1, h.2.1, hfile slot⟩

theorem processMark_templatesIn (h : s.TemplatesIn T) (source : Address) (channel : Fin 8) (seq : Byte)
    (capture : Instant) (position : State → Option Word) :
    (s.processMark source channel seq capture position).TemplatesIn T := by
  obtain e | e | ⟨i, s1, hv, h1, hcase⟩ := s.processMark_cases source channel seq capture position
  · rwa [e]
  · rw [e]; exact h
  · obtain ⟨-, he⟩ := sequenceTest_entry s i seq s1 h1
    have hs1 : s1.TemplatesIn T := templatesIn_of_same h he (sequenceTest_asc _ _ _ _ h1)
    have hk : T (s1.entry i).template := hs1.1 i (by rw [(he i).1, hv])
    obtain e | e | e | ⟨p, -, e⟩ := hcase <;> rw [e]
    · exact hs1
    · exact hs1
    · exact admitTime_templatesIn hs1 _ hk
    · exact admitTravel_templatesIn hs1 _ hk

theorem acceptEdge_templatesIn (h : s.TemplatesIn T) (n : LineId) (r : FilterRecord) :
    (s.acceptEdge n r).TemplatesIn T := by
  refine s.acceptEdge_keeps n r h (zeroRebase_templatesIn (s := s.mapLine n _) h)
    (fun d _ => countChange_templatesIn (s := s.mapLine n _) h d) fun i p settings _ => ?_
  exact takeCapture_keeps (P := TemplatesIn T) settings i p (fun _ _ hu => hu)
    (fun _ _ _ hu => processMark_templatesIn hu _ _ _ _ _)
    (fun u _ _ hu => templatesIn_of_eq hu (publishRoute_sbs u _ _ _) (publishRoute_asc u _ _ _)) h

theorem entry_mapEntry_shadow (s : State) (i j : Fin 64) (delay : BitVec 24) :
    ((s.mapEntry i fun e => { e with shadow := some delay }).entry j).valid = (s.entry j).valid ∧
      ((s.mapEntry i fun e => { e with shadow := some delay }).entry j).template = (s.entry j).template := by
  by_cases h : j = i
  · subst h; simp
  · rw [entry_mapEntry_ne _ _ h]; exact ⟨rfl, rfl⟩

/-- R30: no move names another template. -/
theorem move_templatesIn {k : Nat} (m : Move k s t) (h : s.TemplatesIn T) : t.TemplatesIn T := by
  cases m with
  | retime _ i delay => exact templatesIn_of_same h (fun j => entry_mapEntry_shadow s i j delay) rfl
  | cancelAll => exact cancelWhere_templatesIn h _
  | onTimeExpiry _ n => exact cancelWhere_templatesIn (s := ((s.mapDrive n _).setFlag .driveTimeout).mapDrive n _) h _
  | edge _ n r _ => exact acceptEdge_templatesIn h n r
  | mark _ a ch q cl ph =>
    obtain e | ⟨-, -, e⟩ := s.receiveMark_cases a ch q cl ph <;> rw [e]
    · exact h
    · exact processMark_templatesIn h _ _ _ _ _
  | _ => exact h

theorem boundary_entry (s : State) (byExpiry : Bool) (cycle : Word) (e : Fin 64) :
    ((s.boundary byExpiry cycle).entry e).valid = (s.entry e).valid ∧
      ((s.boundary byExpiry cycle).entry e).template = (s.entry e).template := by
  simp [entry, boundary_sbs, shadowLoad]

theorem boundary_templatesIn (h : s.TemplatesIn T) (byExpiry : Bool) (cycle : Word) :
    (s.boundary byExpiry cycle).TemplatesIn T :=
  templatesIn_of_same h (boundary_entry s byExpiry cycle) (boundary_asc s byExpiry cycle)

theorem advance_templatesIn (h : s.TemplatesIn T) : s.advance.TemplatesIn T := by
  unfold advance
  split
  · exact timePass_templatesIn (s := s.mapLtu _) h
  · exact timePass_templatesIn (s := (State.boundary (s.mapLtu _) true _).mapLtu _)
      (boundary_templatesIn (s := s.mapLtu _) h true _)

theorem adoptForward_templatesIn (h : s.TemplatesIn T) (source : Address) (target : Instant) :
    (s.adoptForward source target).TemplatesIn T := by
  rw [adoptForward_eq]
  refine timePass_templatesIn ?_
  split
  · exact h
  · exact boundary_templatesIn (s := s.jumped source target) h false _

theorem mergeTo_templatesIn (h : s.TemplatesIn T) (source : Address) (target : Instant) (k : Nat) :
    (s.mergeTo source target k).TemplatesIn T := by
  have hs : (s.merged source target k).TemplatesIn T := shiftTimeSchedule_templatesIn h k
  rw [mergeTo_eq]
  split
  · exact hs
  · exact boundary_templatesIn hs false _

/-! ### The templates and the settings of the lines -/

/-- The templates, and the settings of every line, are as they were. -/
def DistributionStands (s t : State) : Prop :=
  t.sbs.templates = s.sbs.templates ∧ ∀ n, (t.line n).settings = (s.line n).settings

theorem DistributionStands.refl (s : State) : DistributionStands s s := ⟨rfl, fun _ => rfl⟩

theorem DistributionStands.trans (h : DistributionStands s t) (g : DistributionStands t u) : DistributionStands s u :=
  ⟨g.1.trans h.1, fun n => (g.2 n).trans (h.2 n)⟩

theorem DistributionStands.of_eq (hb : t.sbs.templates = s.sbs.templates) (hl : t.llu = s.llu) :
    DistributionStands s t := ⟨hb, fun n => by simp [line, hl]⟩

theorem mapLine_distribution (s : State) (n : LineId) (f : LocalLine → LocalLine)
    (h : (f (s.line n)).settings = (s.line n).settings) : DistributionStands s (s.mapLine n f) := by
  refine ⟨rfl, fun m => ?_⟩
  rw [line_mapLine]
  split
  · subst_vars; exact h
  · rfl

theorem processMark_distribution (s : State) (source : Address) (channel : Fin 8) (seq : Byte) (capture : Instant)
    (position : State → Option Word) : DistributionStands s (s.processMark source channel seq capture position) := by
  refine .of_eq ?_ (processMark_llu s _ _ _ _ _)
  obtain e | e | ⟨i, s1, -, h1, hcase⟩ := s.processMark_cases source channel seq capture position
  · rw [e]
  · rw [e]; rfl
  · rw [← (sequenceTest_entry s i seq s1 h1).1]
    obtain e | e | e | ⟨p, -, e⟩ := hcase <;> rw [e]
    · rfl
    · rw [admitTime_sbs]
    · rw [admitTravel_sbs]

theorem acceptEdge_distribution (s : State) (n : LineId) (r : FilterRecord) :
    DistributionStands s (s.acceptEdge n r) := by
  have ha := mapLine_distribution s n (fun l => l.accept r.pending) rfl
  refine s.acceptEdge_keeps (P := DistributionStands s) n r ha (ha.trans ⟨rfl, fun m => ?_⟩)
    (fun d _ => ha.trans (.of_eq (by simp) (by simp))) fun i p settings _ => ?_
  · exact (congrArg LocalLine.settings (line_mapLines (s.mapLine n fun l => l.accept r.pending) m
      (LocalLine.rebaseRecord s.tvu.position))).trans rfl
  · exact takeCapture_keeps (P := DistributionStands s) settings i p (fun _ _ hu => hu.trans (.of_eq rfl rfl))
      (fun u _ _ hu => hu.trans (processMark_distribution u _ _ _ _ _))
      (fun u _ _ hu => hu.trans (.of_eq (by rw [publishRoute_sbs]) (publishRoute_llu u _ _ _)))
      (ha.trans (mapLine_distribution _ n _ rfl))

/-- R40, R118: no move changes a template or a setting. -/
theorem move_distribution {k : Nat} (m : Move k s t) : DistributionStands s t := by
  cases m with
  | lines _ l h => exact ⟨rfl, fun n => (h n).1⟩
  | sight _ n => exact mapLine_distribution s n _ rfl
  | edge _ n r _ => exact acceptEdge_distribution s n r
  | mark _ a ch q cl ph =>
    obtain e | ⟨-, -, e⟩ := s.receiveMark_cases a ch q cl ph <;> rw [e]
    · exact .refl s
    · exact processMark_distribution s _ _ _ _ _
  | cancelAll => exact .of_eq rfl rfl
  | onTimeExpiry _ n => exact .of_eq rfl rfl
  | _ => exact .refl s

theorem startPulse_settings (l : LocalLine) : l.startPulse.settings = l.settings := by
  unfold LocalLine.startPulse
  split <;> rfl

theorem boundary_distribution (s : State) (byExpiry : Bool) (cycle : Word) :
    DistributionStands s (s.boundary byExpiry cycle) :=
  ⟨by rw [boundary_sbs]; rfl, fun n => by rw [boundary_line, startPulse_settings]⟩

theorem advance_distribution (s : State) : DistributionStands s s.advance := by
  unfold advance
  split
  · exact .of_eq rfl rfl
  · exact (boundary_distribution (s.mapLtu _) true _).trans (.of_eq rfl rfl)

theorem adoptForward_distribution (s : State) (source : Address) (target : Instant) :
    DistributionStands s (s.adoptForward source target) := by
  rw [adoptForward_eq]
  refine DistributionStands.trans ?_ (.of_eq (timePass_sbs _ ▸ rfl) (timePass_llu _))
  split
  · exact .of_eq rfl rfl
  · exact (DistributionStands.of_eq rfl rfl).trans (boundary_distribution (s.jumped source target) false _)

theorem mergeTo_distribution (s : State) (source : Address) (target : Instant) (k : Nat) :
    DistributionStands s (s.mergeTo source target k) := by
  have hshift : DistributionStands s (s.merged source target k) :=
    ⟨rfl, fun n => (congrArg LocalLine.settings (line_mapLines s n (LocalLine.shiftRecord s.period k))).trans rfl⟩
  rw [mergeTo_eq]
  split
  · exact hshift
  · exact hshift.trans (boundary_distribution _ false _)

end State
end Sys2Proof.Machine
end

section
/-! The sound state of actions and claims (R29, R30, R64, R91, R92, R96): claims, countdowns, and what LOCKED alone
allows. -/

namespace Sys2Proof.Machine

/-! ### Countdowns of unclaimed lines (R91, R96) -/

/-- R91, R96: an unclaimed line's countdown is stopped. -/
def DriveLine.Stopped (d : DriveLine) : Prop := d.claim = 0 → d.countdown = none

theorem DriveLine.addClaim_stopped (d : DriveLine) : d.addClaim.Stopped := fun h => by simp at h

theorem DriveLine.dropClaim_stopped (d : DriveLine) : d.dropClaim.Stopped := fun h =>
  if_pos (by simpa [Nat.sub_eq_zero_iff_le] using h)

/-- Every line of the DCU is so. -/
def Dcu.Stopped (d : Dcu) : Prop := ∀ n, (d.lines.get n).Stopped

theorem Dcu.onLine_stopped {d : Dcu} (h : d.Stopped) (n : LineId) {f : DriveLine → DriveLine}
    (hf : (f (d.lines.get n)).Stopped) : (d.onLine n f).Stopped := by
  intro m
  simp only [Dcu.onLine, Table.get_modify]
  split
  · subst_vars; exact hf
  · exact h m

theorem Dcu.fire_stopped {d : Dcu} (h : d.Stopped) (op : StepOp) (n : LineId) : (d.fire op n).Stopped := by
  cases op with
  | noOp => exact h
  | assert => exact onLine_stopped h n (DriveLine.addClaim_stopped _)
  | release => exact onLine_stopped h n (DriveLine.dropClaim_stopped _)

theorem Dcu.releaseAll_stopped {d : Dcu} (h : d.Stopped) (held : HeldSet) : (d.releaseAll held).Stopped := by
  intro n
  simp only [Dcu.releaseAll, Table.get_ofFn]
  split
  · exact DriveLine.dropClaim_stopped _
  · exact h n

variable {δ : Type}

theorem pass_stopped (r : DomainRules δ) (templates : Table Template 16) {p : Pool δ} (h : p.dcu.Stopped) :
    (p.pass r templates).dcu.Stopped := by
  refine Pool.pass_keeps r templates (P := fun q => q.dcu.Stopped) (fun q a rest hq _ _ => ?_) p h
  unfold fireHead
  dsimp only
  split <;> exact Dcu.fire_stopped hq _ _

theorem cancelList_stopped (w : Action δ → Bool) (l : List (Action δ)) (f : List (Fin 48)) {d : Dcu} (h : d.Stopped) :
    (cancelList w l f d).dcu.Stopped := by
  rw [cancelList_dcu]
  exact List.foldlRecOn _ _ h fun _ hd a _ => Dcu.releaseAll_stopped hd a.held

namespace State

variable {s t : State} {c : Option Instr}

theorem unclaimedStopped_iff : s.UnclaimedStopped ↔ s.dcu.Stopped := Iff.rfl

theorem mapDrive_stopped (h : s.UnclaimedStopped) (n : LineId) {f : DriveLine → DriveLine}
    (hf : (f (s.drive n)).Stopped) : (s.mapDrive n f).UnclaimedStopped := Dcu.onLine_stopped h n hf

theorem countChange_stopped (h : s.UnclaimedStopped) (d : CountChange) : (s.countChange d).UnclaimedStopped := by
  cases d
  · exact pass_stopped _ _ (p := travelPool _) h
  · refine pass_stopped _ _ (p := travelPool _) ?_
    simpa [travelPool] using unclaimedStopped_iff.1 h

theorem cancelWhere_stopped (h : s.UnclaimedStopped) (w : HeldSet → Bool) : (s.cancelWhere w).UnclaimedStopped :=
  cancelList_stopped _ _ _ (cancelList_stopped _ _ _ h)

theorem processMark_stopped (h : s.UnclaimedStopped) (source : Address) (channel : Fin 8) (seq : Byte)
    (capture : Instant) (position : State → Option Word) :
    (s.processMark source channel seq capture position).UnclaimedStopped := by
  obtain e | e | ⟨i, s1, -, h1, hcase⟩ := s.processMark_cases source channel seq capture position
  · rwa [e]
  · rw [e]; exact h
  · have hs1 : s1.UnclaimedStopped := by
      rw [unclaimedStopped_iff, sequenceTest_dcu _ _ _ _ h1]; exact h
    obtain e | e | e | ⟨p, -, e⟩ := hcase <;> rw [e]
    · exact hs1
    · exact hs1
    · obtain e | e | ⟨slot, free, -, ⟨-, e⟩ | ⟨-, e⟩⟩ := s1.admitTime_cases
        (Instant.add s1.period capture (s1.entry i).delay.toNat) (s1.entry i).template <;> rw [e]
      · exact hs1
      · exact hs1
      · exact hs1
      · exact pass_stopped _ _ (p := timePool _) hs1
    · obtain e | e | ⟨slot, free, -, ⟨-, e⟩ | ⟨-, e⟩⟩ := s1.admitTravel_cases
        (p + (s1.entry i).delay.setWidth 32) (s1.entry i).template <;> rw [e]
      · exact hs1
      · exact hs1
      · exact hs1
      · exact pass_stopped _ _ (p := travelPool _) hs1

theorem acceptEdge_stopped (h : s.UnclaimedStopped) (n : LineId) (r : FilterRecord) :
    (s.acceptEdge n r).UnclaimedStopped := by
  refine s.acceptEdge_keeps n r h h (fun d _ => countChange_stopped (s := s.mapLine n _) h d) fun i p settings _ => ?_
  exact takeCapture_keeps (P := UnclaimedStopped) settings i p (fun _ _ hu => hu)
    (fun _ _ _ hu => processMark_stopped hu _ _ _ _ _)
    (fun u _ _ hu => by rw [unclaimedStopped_iff, publishRoute_dcu]; exact hu) h

/-- R91, R96: every move leaves the countdown of an unclaimed line stopped. -/
theorem move_stopped {k : Nat} (m : Move k s t) (h : s.UnclaimedStopped) : t.UnclaimedStopped := by
  cases m with
  | cancelAll => exact cancelWhere_stopped h _
  | onTimeExpiry _ n =>
    exact cancelWhere_stopped (mapDrive_stopped (s := (s.mapDrive n _).setFlag .driveTimeout)
      (mapDrive_stopped h n (f := fun d => { d with counted := true }) (h n)) n (fun _ => rfl)) _
  | countdown _ n r hr =>
    refine mapDrive_stopped h n fun h0 => ?_
    exact absurd ((h n h0).symm.trans hr) (by simp)
  | uncount =>
    intro n
    simpa [drive] using h n
  | edge _ n r _ => exact acceptEdge_stopped h n r
  | mark _ a ch q cl ph =>
    obtain e | ⟨-, -, e⟩ := s.receiveMark_cases a ch q cl ph <;> rw [e]
    · exact h
    · exact processMark_stopped h _ _ _ _ _
  | _ => exact h

theorem reset_stopped : Dcu.reset.Stopped := fun n _ => by simp [Dcu.reset, DriveLine.reset]

/-- R91, R96: every leap leaves the countdown of an unclaimed line stopped. -/
theorem leap_stopped (l : Leap c s t) (h : s.UnclaimedStopped) : t.UnclaimedStopped := by
  cases l with
  | pinReset => exact reset_stopped
  | restart => exact reset_stopped
  | run => exact fun n => by simpa [drive, enterRunning] using h n
  | selfStart => rw [unclaimedStopped_iff, startSelf_dcu]; exact h
  | join => rw [unclaimedStopped_iff, adoptInListen_dcu]; exact h
  | merge => rw [unclaimedStopped_iff, mergeTo_dcu]; exact h
  | advance =>
    unfold advance
    split
    · exact pass_stopped _ _ (p := timePool _) h
    · refine pass_stopped _ _ (p := timePool _) ?_
      simpa [timePool] using unclaimedStopped_iff.1 h
  | forward =>
    rw [adoptForward_eq]
    refine pass_stopped _ _ (p := timePool _) ?_
    split
    · exact h
    · simpa [timePool] using unclaimedStopped_iff.1 h
  | _ => exact h

/-! ### Claims (R64, R92) -/

theorem acceptEdge_claims (h : s.ClaimsSound) (n : LineId) (r : FilterRecord) : (s.acceptEdge n r).ClaimsSound := by
  have ha : (s.mapLine n fun l => l.accept r.pending).ClaimsSound := claims_of_eq (s := s) rfl rfl rfl h
  refine s.acceptEdge_keeps n r ha (zeroRebase_claims _ ha) (fun d _ => countChange_claims _ d ha) fun i p settings _ => ?_
  exact takeCapture_keeps (P := ClaimsSound) settings i p (fun u _ hu => claims_of_eq (s := u) rfl rfl rfl hu)
    (fun u _ _ hu => processMark_claims u _ _ _ _ _ hu)
    (fun u _ _ hu => claims_of_eq (publishRoute_sbs u _ _ _) (publishRoute_asc u _ _ _) (publishRoute_dcu u _ _ _) hu)
    (claims_of_eq (s := s) rfl rfl rfl h)

theorem mapDrive_claims (h : s.ClaimsSound) (n : LineId) {f : DriveLine → DriveLine}
    (hf : ∀ d, (f d).claim = d.claim) : (s.mapDrive n f).ClaimsSound := by
  refine claims_of_same (s := s) h.1 rfl rfl rfl (fun m => ?_) h
  simp only [drive, mapDrive, Table.get_modify]
  split
  · subst_vars; exact hf _
  · rfl

/-- R29, R30, R64, R92: every move keeps claims and holders in agreement. -/
theorem move_claims {k : Nat} (m : Move k s t) (h : s.ClaimsSound) : t.ClaimsSound := by
  cases m with
  | retime _ i delay =>
    refine claims_of_same (s := s) (fun j hj => ?_) rfl rfl rfl (fun _ => rfl) h
    obtain ⟨hv, ht⟩ := entry_mapEntry_shadow s i j delay
    change ((s.mapEntry i _).entry j).valid = true at hj
    change (s.sbs.templates.get ((s.mapEntry i _).entry j).template).orderingHolds = true
    rw [ht]
    exact h.1 j (hv ▸ hj)
  | cancelAll => exact cancelWhere_claims s _ h
  | onTimeExpiry _ n =>
    have h1 := mapDrive_claims h n (f := fun d => { d with counted := true }) (fun _ => rfl)
    exact cancelWhere_claims _ _ (mapDrive_claims (s := (s.mapDrive n _).setFlag .driveTimeout) h1 n fun _ => rfl)
  | countdown _ n r _ => exact mapDrive_claims h n fun _ => rfl
  | uncount => exact claims_of_same (s := s) h.1 rfl rfl rfl (fun n => by simp [drive]) h
  | edge _ n r _ => exact acceptEdge_claims h n r
  | mark _ a ch q cl ph =>
    obtain e | ⟨-, -, e⟩ := s.receiveMark_cases a ch q cl ph <;> rw [e]
    · exact h
    · exact processMark_claims s _ _ _ _ _ h
  | _ => exact h

/-- No valid entry, no action and no claim. -/
theorem claims_of_idle (hb : t.sbs.TemplatesFit) (ht : t.asc.time = []) (hr : t.asc.travel = [])
    (hd : ∀ n, (t.drive n).claim = 0) : t.ClaimsSound := by
  refine ⟨hb, by simp [ht], by simp [hr], fun n => ?_⟩
  rw [hd, ht, hr]
  rfl

theorem reset_valid (e : Fin 64) : (Sbs.reset.entries.get e).valid = false := by simp [Sbs.reset, Entry.reset]

theorem reset_templatesFit : Sbs.reset.TemplatesFit := fun e he => by simp [reset_valid] at he

theorem reset_claim (n : LineId) : (Dcu.reset.lines.get n).claim = 0 := by simp [Dcu.reset, DriveLine.reset]

theorem reset_claims (hb : t.sbs = Sbs.reset) (ha : t.asc = Asc.reset) (hd : t.dcu = Dcu.reset) : t.ClaimsSound :=
  claims_of_idle (hb ▸ reset_templatesFit) (by rw [ha]; rfl) (by rw [ha]; rfl) fun n => by
    rw [drive, hd, reset_claim]

/-- R30: the templates that the valid entries of a checked image name. -/
theorem named_of_haltCode {img : List Byte} {p : Template → Bool} (h : Image.namedTemplates img p = true) (e : Fin 64)
    (he : (Image.subscription img e).valid = true) : p (Image.template img (Image.subscription img e).template) = true := by
  have := List.all_eq_true.1 h e (by simp [Image.allEntries])
  simpa [he] using this

theorem advance_claims (h : s.ClaimsSound) : s.advance.ClaimsSound := by
  have hl : ∀ f, (s.mapLtu f).ClaimsSound := fun f => claims_of_eq (s := s) rfl rfl rfl h
  unfold advance
  split
  · exact timePass_claims _ (hl _)
  · exact timePass_claims _ (claims_of_eq rfl rfl rfl (boundary_claims _ true _ (hl _)))

theorem adoptForward_claims (h : s.ClaimsSound) (source : Address) (target : Instant) :
    (s.adoptForward source target).ClaimsSound := by
  have hj : (s.jumped source target).ClaimsSound := claims_of_eq (s := s) rfl rfl rfl h
  rw [adoptForward_eq]
  refine timePass_claims _ ?_
  split
  · exact hj
  · exact boundary_claims _ false _ hj

theorem mergeTo_claims (h : s.ClaimsSound) (source : Address) (target : Instant) (k : Nat) :
    (s.mergeTo source target k).ClaimsSound := by
  have hm : (s.merged source target k).ClaimsSound :=
    claims_of_eq (s := s.shiftTimeSchedule k) rfl rfl rfl (shiftTimeSchedule_claims s k h)
  rw [mergeTo_eq]
  split
  · exact hm
  · exact boundary_claims _ false _ hm

end State
end Sys2Proof.Machine
end

section
/-! What LOCKED alone allows (R65, R123): outside it a station holds no action, no claim and no instant. -/

namespace Sys2Proof.Machine

/-- R121, R123: the record of a line holds no instant. -/
def LocalLine.NoInstant (l : LocalLine) : Prop :=
  ∀ r st, l.record = some r → r.stamp = some st → st.instant = none

theorem LocalLine.noInstant_of_none {l : LocalLine} (h : l.record = none) : l.NoInstant := fun _ _ hr _ => by
  simp [h] at hr

theorem LocalLine.rebaseRecord_noInstant {l : LocalLine} (h : l.NoInstant) (x : Word) : (l.rebaseRecord x).NoInstant := by
  intro r st hr hst
  obtain ⟨q, hq, rfl⟩ := Option.map_eq_some_iff.1 hr
  obtain ⟨st', hst', rfl⟩ := Option.map_eq_some_iff.1 hst
  exact h q st' hq hst'

namespace State

variable {s t : State} {c : Option Instr}

/-- No action waits. -/
def NoActions (s : State) : Prop := s.asc.time = [] ∧ s.asc.travel = []

/-- No filter record holds an instant. -/
def NoInstants (s : State) : Prop := ∀ n, (s.line n).NoInstant

/-- R65, R123: outside LOCKED neither is there. -/
def QuietUnlessLocked (s : State) : Prop := s.locked = false → s.NoActions ∧ s.NoInstants

theorem quietUnlessLocked_of_locked (h : t.locked = true) : t.QuietUnlessLocked := fun e => by simp [h] at e

theorem quietOutsideLocked_of (hc : s.ClaimsSound) (h : s.QuietUnlessLocked) : s.QuietOutsideLocked := by
  intro hl
  obtain ⟨⟨h1, h2⟩, h3⟩ := h hl
  refine ⟨h1, h2, fun n => ?_, h3⟩
  rw [hc.2.2.2 n, h1, h2]
  rfl

theorem QuietOutsideLocked.unlessLocked (h : s.QuietOutsideLocked) : s.QuietUnlessLocked := fun hl => by
  obtain ⟨h1, h2, -, h4⟩ := h hl
  exact ⟨⟨h1, h2⟩, h4⟩

/-! ### Empty schedules stay empty -/

theorem travelPass_noActions (h : s.NoActions) : s.travelPass.NoActions := by
  obtain ⟨h1, h2⟩ := h
  refine ⟨h1, ?_⟩
  change (s.travelPool.pass s.travelDomain s.sbs.templates).schedule = []
  rw [Pool.pass_nil _ _ _ h2]
  exact h2

theorem tailTest_of_nil (h : s.asc.travel = []) : s.tailTest = s := by simp [tailTest, h]

theorem countChange_noActions (h : s.NoActions) (d : CountChange) : (s.countChange d).NoActions := by
  cases d
  · exact travelPass_noActions h
  · refine travelPass_noActions ?_
    rw [tailTest_of_nil]
    · exact h
    · exact h.2

theorem cancelWhere_noActions (h : s.NoActions) (w : HeldSet → Bool) : (s.cancelWhere w).NoActions := by
  obtain ⟨h1, h2⟩ := h
  constructor
  · change (cancelList _ s.asc.time _ _).schedule = []
    rw [cancelList_schedule, h1]
    rfl
  · change (cancelList _ s.asc.travel _ _).schedule = []
    rw [cancelList_schedule, h2]
    rfl

/-! ### Moves outside LOCKED -/

/-- R45, R121: outside LOCKED no accepted edge is captured. -/
theorem no_capture (hl : s.locked = false) (h : s.NoInstants) {n : LineId} {r : FilterRecord}
    (hr : (s.line n).record = some r ∨ r = s.firstSightRecord n) (i : Instant) (p : Word) :
    r.stamp ≠ some { instant := some i, position := p } := by
  intro hst
  obtain hr | rfl := hr
  · exact absurd (h n r _ hr hst) (by simp)
  · simp [firstSightRecord, hl] at hst

theorem move_noActions {k : Nat} (m : Move k s t) (hl : s.locked = false) (hi : s.NoInstants) (h : s.NoActions) :
    t.NoActions := by
  cases m with
  | cancelAll => exact cancelWhere_noActions h _
  | onTimeExpiry _ n => exact cancelWhere_noActions (s := ((s.mapDrive n _).setFlag .driveTimeout).mapDrive n _) h _
  | edge _ n r hr =>
    refine s.acceptEdge_keeps n r h ?_ (fun d _ => countChange_noActions (s := s.mapLine n _) h d)
      fun i p _ hst => absurd hst (no_capture hl hi hr i p)
    exact ⟨h.1, congrArg (List.map _) h.2⟩
  | mark _ a ch q cl ph =>
    obtain e | ⟨hl', -, -⟩ := s.receiveMark_cases a ch q cl ph
    · rwa [e]
    · simp [hl] at hl'
  | _ => exact h

theorem noInstants_of_llu (h : s.NoInstants) (e : t.llu = s.llu) : t.NoInstants := fun n => by
  simpa [line, e] using h n

theorem mapLine_noInstants (h : s.NoInstants) (n : LineId) {f : LocalLine → LocalLine}
    (hf : (f (s.line n)).NoInstant) : (s.mapLine n f).NoInstants := by
  intro m
  rw [line_mapLine]
  split
  · subst_vars; exact hf
  · exact h m

theorem move_noInstants {k : Nat} (m : Move k s t) (hl : s.locked = false) (h : s.NoInstants) : t.NoInstants := by
  cases m with
  | lines _ l hs =>
    intro n r st hr hst
    obtain ⟨q, hq, e⟩ := (hs n).2 r hr
    exact h n q st hq (e ▸ hst)
  | sight _ n =>
    refine mapLine_noInstants h n fun r st hr hst => ?_
    obtain rfl := Option.some.inj hr
    cases hi : st.instant with
    | none => rfl
    | some i => exact absurd (hst.trans (by rw [← hi])) (no_capture hl h (.inr rfl) i st.position)
  | edge _ n r hr =>
    have ha : (s.mapLine n fun l => l.accept r.pending).NoInstants :=
      mapLine_noInstants h n (LocalLine.noInstant_of_none rfl)
    refine s.acceptEdge_keeps n r ha (fun m => ?_) (fun d _ => noInstants_of_llu ha (by simp))
      fun i p _ hst => absurd hst (no_capture hl h hr i p)
    have e := line_mapLines (s.mapLine n fun l => l.accept r.pending) m (LocalLine.rebaseRecord s.tvu.position)
    have hm := LocalLine.rebaseRecord_noInstant (ha m) s.tvu.position
    rw [← e] at hm
    exact hm
  | mark _ a ch q cl ph => exact noInstants_of_llu h (receiveMark_llu s a ch q cl ph)
  | cancelAll => exact h
  | onTimeExpiry _ n => exact h
  | _ => exact h

/-- R65, R123: every move keeps a station outside LOCKED so. -/
theorem move_quiet {k : Nat} (m : Move k s t) (h : s.QuietUnlessLocked) : t.QuietUnlessLocked := by
  intro hl
  rw [(move_lineTimeStands m).locked] at hl
  obtain ⟨h1, h2⟩ := h hl
  exact ⟨move_noActions m hl h2 h1, move_noInstants m hl h2⟩

/-! ### Leaps -/

theorem reset_quiet (ha : t.asc = Asc.reset) (hl : t.llu = Llu.reset) : t.QuietUnlessLocked := fun _ =>
  ⟨⟨by rw [ha]; rfl, by rw [ha]; rfl⟩, fun n => LocalLine.noInstant_of_none (by
    simp [line, hl, Llu.reset, LocalLine.reset])⟩

theorem startSelf_locked (h : s.listening = true) : s.startSelf.locked = true :=
  locked_of (by simpa using (run_of_listening h).1) (by rw [startSelf_ltu])

theorem adoptInListen_locked (h : s.listening = true) (source : Address) (target : Instant) :
    (s.adoptInListen source target).locked = true :=
  locked_of (by simpa using (run_of_listening h).1) (by rw [adoptInListen_ltu])

/-- R65, R123: every leap that ends outside LOCKED ends without action and instant. -/
theorem leap_quiet (l : Leap c s t) (h : s.QuietUnlessLocked) : t.QuietUnlessLocked := by
  cases l with
  | pinReset => exact reset_quiet rfl rfl
  | restart => exact reset_quiet rfl rfl
  | halt _ _ code hr => exact fun _ => h (unlocked_of_configuring hr)
  | run _ _ img pins hr =>
    obtain ⟨h1, h2⟩ := h (unlocked_of_configuring hr)
    exact fun _ => ⟨h1, fun n r st => by simpa [line, enterRunning, lineAtEntry] using h2 n r st⟩
  | selfStart _ _ hl => exact quietUnlessLocked_of_locked (startSelf_locked hl)
  | join _ _ source target hl => exact quietUnlessLocked_of_locked (adoptInListen_locked hl source target)
  | advance _ _ hl => exact quietUnlessLocked_of_locked (by rw [advance_locked, hl])
  | forward _ _ source target hl => exact quietUnlessLocked_of_locked (by rw [adoptForward_locked, hl])
  | merge _ _ source target k hl => exact quietUnlessLocked_of_locked (by rw [mergeTo_locked, hl])
  | _ => exact h

/-- R29, R30, R64, R92: every leap keeps claims and holders in agreement. -/
theorem leap_claims (l : Leap c s t) (hq : s.QuietUnlessLocked) (h : s.ClaimsSound) : t.ClaimsSound := by
  cases l with
  | pinReset => exact reset_claims rfl rfl rfl
  | restart => exact reset_claims rfl rfl rfl
  | run _ _ img pins hr hc =>
    obtain ⟨-, -, -, hord, -⟩ := Image.checks_of_haltCode hc
    obtain ⟨⟨h1, h2⟩, -⟩ := hq (unlocked_of_configuring hr)
    refine claims_of_idle (fun e he => ?_) h1 h2 fun n => ?_
    · simp only [enterRunning, Table.get_ofFn] at he ⊢
      exact named_of_haltCode hord e he
    · have := h.2.2.2 n
      rw [h1, h2] at this
      simpa [drive, enterRunning, holders] using this
  | selfStart => exact boundary_claims _ false _ (claims_of_eq (s := s) rfl rfl rfl h)
  | join => exact boundary_claims _ false _ (claims_of_eq (s := s) rfl rfl rfl h)
  | advance => exact advance_claims h
  | forward _ _ source target => exact adoptForward_claims h source target
  | merge _ _ source target k => exact mergeTo_claims h source target k
  | _ => exact h

/-- The parts of the sound state of actions that every step keeps. -/
theorem actionsSound_iff : s.ActionsSound ↔ s.ClaimsSound ∧ s.UnclaimedStopped ∧ s.QuietUnlessLocked :=
  ⟨fun ⟨h1, h2, h3⟩ => ⟨h1, h2, h3.unlessLocked⟩, fun ⟨h1, h2, h3⟩ => ⟨h1, h2, quietOutsideLocked_of h1 h3⟩⟩

theorem move_actionsSound {k : Nat} (m : Move k s t) (h : s.ActionsSound) : t.ActionsSound := by
  rw [actionsSound_iff] at h ⊢
  obtain ⟨h1, h2, h3⟩ := h
  exact ⟨move_claims m h1, move_stopped m h2, move_quiet m h3⟩

theorem leap_actionsSound (l : Leap c s t) (h : s.ActionsSound) : t.ActionsSound := by
  rw [actionsSound_iff] at h ⊢
  obtain ⟨h1, h2, h3⟩ := h
  exact ⟨leap_claims l h3 h1, leap_stopped l h2, leap_quiet l h3⟩

/-! ### The lines that actions drive (R29, R30) -/

/-- R29: a template's steps in use name DRIVE lines alone. -/
def DrivesAlone (s : State) (k : Fin 16) : Prop := (s.sbs.templates.get k).linesAreDrive s.functionOf = true

theorem driveLinesOnly_iff : s.DriveLinesOnly ↔ s.TemplatesIn s.DrivesAlone := Iff.rfl

theorem DistributionStands.drivesAlone (h : DistributionStands s t) : t.DrivesAlone = s.DrivesAlone := by
  have hf : t.functionOf = s.functionOf := funext fun n => congrArg LineSettings.function (h.2 n)
  funext k
  rw [DrivesAlone, DrivesAlone, h.1, hf]

theorem driveLinesOnly_of (h : s.DriveLinesOnly) (hd : DistributionStands s t)
    (ht : s.TemplatesIn s.DrivesAlone → t.TemplatesIn s.DrivesAlone) : t.DriveLinesOnly := by
  rw [driveLinesOnly_iff, hd.drivesAlone]
  exact ht h

theorem move_driveLinesOnly {k : Nat} (m : Move k s t) (h : s.DriveLinesOnly) : t.DriveLinesOnly :=
  driveLinesOnly_of h (move_distribution m) (move_templatesIn m)

theorem driveLinesOnly_of_idle (he : ∀ e, (t.entry e).valid = true →
    (t.sbs.templates.get (t.entry e).template).linesAreDrive t.functionOf = true) (ha : t.NoActions) :
    t.DriveLinesOnly :=
  ⟨he, by simp [ha.1], by simp [ha.2]⟩

theorem reset_driveLinesOnly (hb : t.sbs = Sbs.reset) (ha : t.asc = Asc.reset) : t.DriveLinesOnly :=
  driveLinesOnly_of_idle (fun e he => by simp [entry, hb, reset_valid] at he) ⟨by rw [ha]; rfl, by rw [ha]; rfl⟩

theorem boundary_after (u : State) (byExpiry : Bool) (cycle : Word) (h : s.DriveLinesOnly) (hb : u.sbs = s.sbs)
    (hl : u.llu = s.llu) (ha : u.asc = s.asc) : (u.boundary byExpiry cycle).DriveLinesOnly :=
  driveLinesOnly_of h ((DistributionStands.of_eq (by rw [hb]) hl).trans (boundary_distribution u byExpiry cycle)) fun ht =>
    boundary_templatesIn (templatesIn_of_eq ht hb ha) byExpiry cycle

theorem leap_driveLinesOnly (l : Leap c s t) (hq : s.QuietUnlessLocked) (h : s.DriveLinesOnly) : t.DriveLinesOnly := by
  cases l with
  | pinReset => exact reset_driveLinesOnly rfl rfl
  | restart => exact reset_driveLinesOnly rfl rfl
  | run _ _ img pins hr hc =>
    obtain ⟨-, -, -, -, hdrv⟩ := Image.checks_of_haltCode hc
    refine driveLinesOnly_of_idle (fun e he => ?_) (hq (unlocked_of_configuring hr)).1
    have hf : (s.enterRunning img pins).functionOf = Image.functionOf img := funext fun n => by
      simp [functionOf, line, enterRunning, lineAtEntry, Image.functionOf]
    rw [hf]
    simp only [entry, enterRunning, Table.get_ofFn] at he ⊢
    exact named_of_haltCode hdrv e he
  | selfStart => exact boundary_after (s.mapLtu _) false _ h rfl rfl rfl
  | join => exact boundary_after (s.mapLtu _) false _ h rfl rfl rfl
  | advance => exact driveLinesOnly_of h (advance_distribution s) advance_templatesIn
  | forward _ _ source target =>
    exact driveLinesOnly_of h (adoptForward_distribution s source target) fun ht =>
      adoptForward_templatesIn ht source target
  | merge _ _ source target k =>
    exact driveLinesOnly_of h (mergeTo_distribution s source target k) fun ht => mergeTo_templatesIn ht source target k
  | _ => exact h

/-! ### A held line is a line that a step drives -/

theorem orderRun_held {l : List TemplateStep} {held last : HeldSet} (h : orderRun l held = some last) {n : LineId}
    (hn : last.get n = true) : held.get n = true ∨ ∃ x ∈ l, x.line = n := by
  induction l generalizing held with
  | nil =>
    obtain rfl := Option.some.inj h
    exact .inl hn
  | cons x rest ih =>
    have hrest : ∀ b, orderRun rest (held.set x.line b) = some last → held.get n = true ∨ ∃ y ∈ x :: rest, y.line = n := by
      intro b hb
      by_cases hx : x.line = n
      · exact .inr ⟨x, List.mem_cons_self, hx⟩
      · obtain h1 | ⟨y, hy, e⟩ := ih hb
        · rw [Table.get_set_ne _ _ (Ne.symm hx)] at h1
          exact .inl h1
        · exact .inr ⟨y, List.mem_cons_of_mem _ hy, e⟩
    unfold orderRun at h
    split at h
    · split at h
      · cases h
      · exact hrest _ h
    · split at h
      · exact hrest _ h
      · cases h
    · cases h

/-- R29, R64: the lines that an action holds are lines of the steps in use of its template. -/
theorem Action.drive_of_held {δ : Type} {templates : Table Template 16} {a : Action δ} (h : a.Fits templates)
    {f : LineId → LineFunction} (hd : (templates.get a.template).linesAreDrive f = true) {n : LineId}
    (hn : a.held.get n = true) : f n = .drive := by
  obtain ⟨-, hk, hb⟩ := h
  obtain hz | ⟨x, hx, rfl⟩ := orderRun_held hb hn
  · simp at hz
  · have hmem : x ∈ (templates.get a.template).stepsInUse := by
      refine (List.take_prefix_take_left ?_).subset hx
      exact hk.le
    simpa using List.all_eq_true.1 hd x hmem

theorem holders_zero {δ : Type} {n : LineId} {l : List (Action δ)} (h : ∀ a ∈ l, a.held.get n = false) :
    holders n l = 0 := by
  simpa [holders, List.length_eq_zero_iff, List.filter_eq_nil_iff] using h

/-- R92: no action claims a line that is not DRIVE. -/
theorem claim_of_not_drive (hc : s.ClaimsSound) (hd : s.DriveLinesOnly) {n : LineId} (hn : s.functionOf n ≠ .drive) :
    (s.drive n).claim = 0 := by
  obtain ⟨-, h1, h2, hm⟩ := hc
  obtain ⟨-, d1, d2⟩ := hd
  rw [hm n, holders_zero fun a ha => ?_, holders_zero fun a ha => ?_]
  · exact Bool.eq_false_iff.2 fun hh => hn (Action.drive_of_held (h2 a ha) (d2 a ha) hh)
  · exact Bool.eq_false_iff.2 fun hh => hn (Action.drive_of_held (h1 a ha) (d1 a ha) hh)

/-- Settles O58: moves and leaps keep each part of the sound state, and the line condition beside it. -/
theorem stepKeepsClaimsEqualHolders : Obligations.StepKeepsClaimsEqualHolders := by
  intro s t h e
  have ht : t.ActionsSound :=
    step_keeps (P := ActionsSound) (fun _ _ _ m => move_actionsSound m) (fun _ _ _ l => leap_actionsSound l) e h
  refine ⟨ht, fun hd => ?_⟩
  have htd : t.DriveLinesOnly := (step_keeps (P := fun u => u.QuietUnlessLocked ∧ u.DriveLinesOnly)
    (fun _ _ _ m hu => ⟨move_quiet m hu.1, move_driveLinesOnly m hu.2⟩)
    (fun _ _ _ l hu => ⟨leap_quiet l hu.1, leap_driveLinesOnly l hu.1 hu.2⟩) e
    ⟨(actionsSound_iff.1 h).2.2, hd⟩).2
  exact ⟨htd, fun n hn => claim_of_not_drive ht.1 htd hn⟩

end State
end Sys2Proof.Machine
end

section
/-! A step and its command: the front of the queue is run, every command completes, and none touches the queue. -/

namespace Sys2Proof.Machine.State

variable {s : State}

/-- Settles O1: a step is the front command in the state with the queue's rest. -/
theorem stepRunsFrontCommand : Obligations.StepRunsFrontCommand := fun _ _ => rfl

/-! ### Frames and the queue -/

theorem receiveFrame_pending (s : State) (i : Instr) {work : State → State} (hw : ∀ u, (work u).pending = u.pending) :
    (s.receiveFrame i work).pending = s.pending := by
  obtain ⟨-, e⟩ | e | ⟨-, d, e⟩ := s.receiveFrame_cases i work <;> rw [e]
  · rw [hw, closed_pending]
  · rfl

theorem acceptFrame_pending (s : State) (source : Address) {dispatch : State → State}
    (hd : ∀ u, (dispatch u).pending = u.pending) : (acceptFrame source dispatch s).pending = s.pending := by
  unfold acceptFrame
  dsimp only
  split <;> simp [hd]

/-- A frame whose dispatch leaves the queue leaves it. -/
theorem receive_pending (s : State) (i : Instr) (source : Address) {dispatch : State → State}
    (hd : ∀ u, (dispatch u).pending = u.pending) :
    (s.receiveFrame i (acceptFrame source dispatch)).pending = s.pending :=
  receiveFrame_pending s i fun u => acceptFrame_pending u source hd

theorem whenRunning_pending (s : State) {work : State → State} (hw : ∀ u, (work u).pending = u.pending) :
    (whenRunning work s).pending = s.pending := by
  unfold whenRunning
  split
  · exact hw s
  · rfl

theorem takeRequest_pending (s : State) (target : Byte) (tag : Half) {act : State → State}
    (ha : ∀ u, (act u).pending = u.pending) : (s.takeRequest target tag act).pending = s.pending := by
  unfold takeRequest
  split
  · split
    · exact ha s
    · rfl
  · rfl

/-- R149, R172: the same of a request that only a RUNNING station takes. -/
theorem request_pending (s : State) (i : Instr) (source : Address) (target : Byte) (tag : Half) {act : State → State}
    (ha : ∀ u, (act u).pending = u.pending) :
    (s.receiveFrame i (acceptFrame source (whenRunning fun u => u.takeRequest target tag act))).pending = s.pending :=
  receive_pending s i source fun u => whenRunning_pending u fun v => takeRequest_pending v target tag ha

theorem restartStation_pending (s : State) (start : StartReads) : (s.restartStation start).pending = s.pending := rfl

theorem takeRestart_pending (s : State) (target : Byte) (tag : Half) (start : StartReads) :
    (s.takeRestart target tag start).pending = s.pending := by
  unfold takeRestart
  split
  · exact takeRequest_pending s target tag fun u => restartStation_pending u start
  · split <;> rfl
  · rfl

theorem retimeEntry_pending (s : State) (entry : Byte) (delay : BitVec 24) :
    (s.retimeEntry entry delay).pending = s.pending := by
  unfold retimeEntry takeRetime
  split
  · next s1 h =>
    split_ifs at h with h1 h2
    obtain rfl := Option.some.inj h
    rfl
  · rfl

/-! ### Every command -/

/-- No arm faults or refuses. -/
theorem exec_next (c : Instr) (s : State) : ∃ t, exec c s = .next t := by cases c <;> exact ⟨_, rfl⟩

theorem exec_pending {c : Instr} {t : State} (h : exec c s = .next t) : t.pending = s.pending := by
  cases c with
  | pinReset => cases h; rfl
  | resetRelease start => cases h; split <;> rfl
  | memoryNotAnswering place =>
    cases h
    split
    · rfl
    · split <;> rfl
  | imageChecks image pins =>
    cases h
    split
    · rfl
    · dsimp only
      split
      · split <;> rfl
      · rfl
  | listenWrap => cases h; split <;> simp
  | selfStart => cases h; split <;> simp
  | cycleExpiry => cases h; split <;> simp
  | holdEnd => cases h; split <;> simp
  | timeHeadDue => cases h; split <;> simp
  | onTimeExpiry n => cases h; split <;> simp
  | firstSight n => cases h; split <;> simp
  | filterReversion n => cases h; split <;> simp
  | edgeAccept n =>
    cases h
    split
    · rfl
    · split <;> simp
  | deadTimeExpiry n => cases h; split <;> simp
  | pulseEnd n => cases h; split <;> simp
  | mismatchDetected n =>
    cases h
    split
    · rfl
    · split <;> simp
  | readBackAgreement n => cases h; split <;> simp
  | transmitStart => cases h; split <;> simp
  | arbitrationLost =>
    cases h
    split
    · rfl
    · split <;> simp
  | transmitFault b =>
    cases h
    split
    · rfl
    · split <;> simp
  | ownFrameAccepted =>
    cases h
    split
    · rfl
    · split <;> simp
  | frameRejected f =>
    cases h
    refine receiveFrame_pending s _ fun u => ?_
    unfold rejectFrame
    split <;> simp
  | beacon a _ _ _ => cases h; exact receive_pending s _ a fun u => whenRunning_pending u fun v => by simp
  | mark a _ _ _ _ => cases h; exact receive_pending s _ a fun u => whenRunning_pending u fun v => by simp
  | clearFaults a g k => cases h; exact request_pending s _ a g k clearEvents_pending
  | purge a g k => cases h; exact request_pending s _ a g k cancelAll_pending
  | restart a g k start => cases h; exact receive_pending s _ a fun u => takeRestart_pending u g k start
  | unknownOperation a g k o => cases h; exact request_pending s _ a g k refuseRequest_pending
  | retime a g k e d => cases h; exact request_pending s _ a g k fun u => retimeEntry_pending u e d
  | query a g p =>
    cases h
    split
    · exact acceptFrame_pending s a fun u => takeQuery_pending u g p
    · exact receive_pending s _ a fun u => takeQuery_pending u g p
  | report a content => cases h; exact receive_pending s _ a fun _ => rfl
  | receiveDecoderOutsideFrame =>
    cases h
    split
    · rfl
    · split <;> rfl
  | startBitRead =>
    cases h
    split
    · rfl
    · split <;> rfl

/-- Settles O2: every arm answers `.next`, and each leaves the queue. -/
theorem everyCommandCompletes : Obligations.EveryCommandCompletes := fun c s => by
  obtain ⟨t, h⟩ := exec_next c s
  exact ⟨t, h, exec_pending h⟩

end Sys2Proof.Machine.State
end

section
/-! The pin reset (R181) and its sound state. -/

namespace Sys2Proof.Machine.State

theorem reset_fit : State.reset.TimeSound := timeSound_of_reset rfl rfl rfl rfl

theorem reset_actionsSound : State.reset.ActionsSound :=
  actionsSound_iff.2 ⟨reset_claims rfl rfl rfl, reset_stopped, reset_quiet rfl rfl⟩

/-- Settles O55: each invariant of the station at a pin reset. -/
theorem resetIsSound : Obligations.ResetIsSound :=
  ⟨reset_slotsPartitioned, Counters.zero_bounded, reset_fit, reset_actionsSound, reset_driveLinesOnly rfl rfl,
    historySound_of_nil rfl rfl, Nat.zero_le _⟩

/-- R181: what each block shows of the station at a pin reset. -/
theorem execPinReset_blocks (s : State) : exec .pinReset s = .next { State.reset with pending := s.pending } := rfl

theorem execResetRelease_held {s : State} (h : s.heldInReset = true) (start : StartReads) :
    exec (.resetRelease start) s = .next (s.proceed start) := by
  change Host.Outcome.next _ = _
  rw [if_pos h]

/-- Settles O4: the reset values block by block, and the release from a station held in reset. -/
theorem pinResetAndRelease : Obligations.PinResetAndRelease := by
  refine ⟨fun s => ⟨_, execPinReset_blocks s, rfl, rfl, rfl, ?_⟩, fun s start hc hr => ?_⟩
  · refine ⟨fun a => Table.get_fill _ a, fun e => Table.get_fill _ e, fun k => ?_, fun c => Table.get_fill _ c, rfl, rfl,
      fun n => ?_, rfl, fun n => Table.get_fill _ n, rfl, fun r => ?_, rfl, fun f => by cases f <;> rfl,
      fun c => by cases c <;> rfl, rfl, rfl, rfl, rfl, rfl, rfl⟩
    · have hk : State.reset.sbs.templates.get k = Template.reset := Table.get_fill _ k
      constructor
      · exact congrArg Template.count hk
      · intro j
        exact (congrArg (fun t => Table.get t j) (congrArg Template.steps hk)).trans (Table.get_fill _ j)
    · have hn : State.reset.drive n = DriveLine.reset := Table.get_fill _ n
      exact ⟨hn, congrArg DriveLine.demand hn⟩
    · cases r <;> rfl
  · exact execResetRelease_held (by simp [heldInReset, hc, hr]) start

end Sys2Proof.Machine.State
end

section
/-! The short commands of line time, of the local lines and of the line pair: each one's whole effect. -/

namespace Sys2Proof.Machine

/-- Settles O31: the two claim operations, by the claim count they meet. -/
theorem countdownFollowsTheDemand : Obligations.CountdownFollowsTheDemand := by
  intro d
  refine ⟨fun h0 hl => ?_, fun h0 hl => ?_, fun h0 => ?_, fun h1 => ?_, fun h1 => ?_, ?_⟩
  · simp [DriveLine.addClaim, h0, hl, Config.onTimeUnit]
  · simp [DriveLine.addClaim, hl]
  · simp [DriveLine.addClaim, Nat.ne_of_gt h0]
  · simp [DriveLine.dropClaim, h1]
  · simp [DriveLine.dropClaim, Nat.not_le.2 h1]
  · unfold DriveLine.demand
    split <;> simp_all

namespace State

variable {s : State}

/-! ### Commands of line time (R5, R18) -/

theorem phaseEnds_iff : s.phaseEnds = true ↔ s.period ≤ s.now.phase + 1 := decide_eq_true_iff

theorem joinWaitEnds_iff : s.joinWaitEnds = true ↔ s.joinWait ≤ s.ltu.listenCount + 1 := decide_eq_true_iff

theorem joinWaitEnds_false_iff : s.joinWaitEnds = false ↔ s.ltu.listenCount + 1 < s.joinWait := by
  rw [← Bool.not_eq_true, joinWaitEnds_iff, Nat.not_le]

theorem listening_iff : s.listening = true ↔ s.running = true ∧ s.ltu.sync = .listen := by simp [listening]

theorem locked_iff : s.locked = true ↔ s.running = true ∧ s.ltu.sync = .locked := by simp [locked]

/-- Settles O10: both commands meet their conditions. -/
theorem wrapAndHoldEnd : Obligations.WrapAndHoldEnd := by
  constructor
  · intro s hr hs ht hp hj
    change Host.Outcome.next _ = _
    rw [if_pos ⟨listening_iff.2 ⟨hr, hs⟩, phaseEnds_iff.2 hp, joinWaitEnds_false_iff.2 hj, ht⟩]
    rfl
  · intro s hr hs ht hh
    change Host.Outcome.next _ = _
    rw [if_pos ⟨locked_iff.2 ⟨hr, hs⟩, hh, ht⟩]
    simp [holdTick, markTicked, mapLtu, hh]

/-! ### Timers of the lines (R127, R131) -/

theorem execDeadTimeExpiry_now (n : LineId) (hr : s.running = true) (h1 : (s.line n).deadTime = 1)
    (hc : (s.line n).deadCounted = false) :
    exec (.deadTimeExpiry n) s = .next (s.mapLine n fun l => { l with deadTime := 0, deadCounted := true }) := by
  change Host.Outcome.next _ = _
  rw [if_pos ⟨hr, h1, hc⟩]

theorem execPulseEnd_now (n : LineId) (hr : s.running = true) (h1 : (s.line n).pulse = 1)
    (hc : (s.line n).pulseCounted = false) :
    exec (.pulseEnd n) s = .next (s.mapLine n fun l => { l with pulse := 0, pulseCounted := true }) := by
  change Host.Outcome.next _ = _
  rw [if_pos ⟨hr, h1, hc⟩]

theorem execDeadTimeExpiry_counted (n : LineId) (h : (s.line n).deadCounted = true) :
    exec (.deadTimeExpiry n) s = .next s := by
  change Host.Outcome.next _ = _
  rw [if_neg (by simp [h])]

theorem execPulseEnd_counted (n : LineId) (h : (s.line n).pulseCounted = true) : exec (.pulseEnd n) s = .next s := by
  change Host.Outcome.next _ = _
  rw [if_neg (by simp [h])]

/-- Settles O38: a timer that runs out changes its line, and one that has counted nothing. -/
theorem lineTimersRunOut : Obligations.LineTimersRunOut := by
  intro s n hr
  refine ⟨fun h1 hc => ⟨_, execDeadTimeExpiry_now n hr h1 hc, line_mapLine_self s n _,
      fun m hm => line_mapLine_ne s _ hm, rfl, rfl, rfl, rfl, rfl, rfl, rfl, rfl, rfl, rfl⟩,
    fun h1 hc => ⟨_, execPulseEnd_now n hr h1 hc, line_mapLine_self s n _, fun m hm => line_mapLine_ne s _ hm,
      rfl, rfl, rfl, rfl, rfl, rfl, rfl, rfl, rfl, rfl⟩,
    execDeadTimeExpiry_counted n, execPulseEnd_counted n⟩

/-! ### Read-back (R132) -/

theorem execMismatchDetected_now (n : LineId) {level : Level} (hr : s.running = true) (hf : s.functionOf n = .drive)
    (hp : (s.line n).presented = some level) (hc : (s.line n).compared = false) :
    exec (.mismatchDetected n) s =
      .next ((s.readBackDiffers n).mapLine n fun l => { l with compared := true, pinHeld := some level.other }) := by
  change Host.Outcome.next _ = _
  rw [hp]
  dsimp only
  rw [if_pos ⟨hr, hf, hc⟩]

theorem execReadBackAgreement_now (n : LineId) {level : Level} (hr : s.running = true) (hf : s.functionOf n = .drive)
    (hp : (s.line n).presented = some level) (hc : (s.line n).compared = false) :
    exec (.readBackAgreement n) s =
      .next ((s.readBackAgrees n).mapLine n fun l => { l with compared := true, pinHeld := none }) := by
  change Host.Outcome.next _ = _
  rw [if_pos ⟨hr, hf, by simp [hp], hc⟩]

/-- R132: a disagreement before the 64th counts. -/
theorem readBackDiffers_early (n : LineId) (h : (s.line n).mismatchTimer < 63) :
    s.readBackDiffers n = s.mapLine n fun l => { l with mismatchTimer := l.mismatchTimer + 1 } := by
  unfold readBackDiffers
  rw [if_neg (by simp [Config.mismatchTicks]; omega)]

/-- R132: the 64th disagreement and every further one are detected. -/
theorem readBackDiffers_detected (n : LineId) (h : 63 ≤ (s.line n).mismatchTimer) : s.readBackDiffers n =
    (s.mapLine n fun l => { l with mismatchTimer := 64, mismatch := true }).setFlag .driveMismatch := by
  unfold readBackDiffers
  rw [if_pos (by simp [Config.mismatchTicks]; omega)]
  rfl

theorem setFlag_line (f : EventFlag) (n : LineId) : (s.setFlag f).line n = s.line n := rfl

theorem readBackDiffers_line_ne {n m : LineId} (hm : m ≠ n) : (s.readBackDiffers n).line m = s.line m := by
  unfold readBackDiffers
  split
  · rw [setFlag_line, line_mapLine_ne _ _ hm]
  · exact line_mapLine_ne _ _ hm

/-- Settles O39: the comparison's table, by the timer. -/
theorem readBackSetsAndClears : Obligations.ReadBackSetsAndClears := by
  intro s n level hr hf hp hc
  refine ⟨⟨_, execMismatchDetected_now n hr hf hp hc, fun ht => ?_, fun ht => ?_, fun m hm => ?_, ?_⟩,
    _, execReadBackAgreement_now n hr hf hp hc, ?_, rfl, fun m hm => ?_, ?_⟩
  · rw [readBackDiffers_early n ht, line_mapLine_self, line_mapLine_self]
    exact ⟨rfl, rfl⟩
  · rw [readBackDiffers_detected n ht, line_mapLine_self, setFlag_line, line_mapLine_self]
    exact ⟨rfl, rfl⟩
  · rw [line_mapLine_ne _ _ hm, readBackDiffers_line_ne hm]
  · simp
  · rw [line_mapLine_self, readBackAgrees, line_mapLine_self]
  · rw [line_mapLine_ne _ _ hm, readBackAgrees, line_mapLine_ne _ _ hm]
  · exact ⟨rfl, rfl, rfl, rfl, rfl, rfl, rfl, rfl, rfl⟩

/-! ### The ends of an attempt (R143, R145) -/

theorem ltx_sending {x : Transmission} (h : s.lpi.transmission = some x) (received : Option WireFrame) :
    s.ltx received = x.sent := by simp [ltx, h]

theorem arbitrates_iff (x : Transmission) : x.arbitrates = true ↔ x.bit < 9 := decide_eq_true_iff

theorem execArbitrationLost_sending {x : Transmission} (h : s.lpi.transmission = some x) : exec .arbitrationLost s =
    .next (if x.bit < 9 ∧ s.ltx none = true then s.endAttempt.returnCandidate x.candidate else s) := by
  change Host.Outcome.next _ = _
  rw [h, ltx_sending h]
  simp [arbitrates_iff]

/-- R137: a station that is within a frame, not at its acceptance bit, drives nothing. -/
theorem drivesRejectMark_early {bit : Nat} {heeded : Bool} (hd : s.lpi.decoder = .inside bit heeded) (hb : bit < 9)
    (f : WireFrame) : s.drivesRejectMark f = false := by
  have ha : (bit == acceptanceBit f) = false := by
    simp only [acceptanceBit, WireFrame.ticks, beq_eq_false_iff_ne]
    omega
  simp [drivesRejectMark, hd, ha]

theorem ltx_reading_early {bit : Nat} {heeded : Bool} (ht : s.lpi.transmission = none)
    (hd : s.lpi.decoder = .inside bit heeded) (hb : bit < 9) (received : Option WireFrame) :
    s.ltx received = true := by
  unfold ltx
  rw [ht]
  cases received with
  | none => rfl
  | some f => simp [drivesRejectMark_early hd hb]

/-- R167: a report on the wire that comes back. -/
theorem returnReport_sending {q : Fin 8} (h : s.fru.reportSlot = .sending q) : s.returnReport =
    { s with fru := { s.fru with reportSlot := .waiting (s.fru.heldPage.getD q), heldPage := none } } := by
  simp [returnReport, h]

theorem returnReport_kept (s : State) : s.returnReport.fru.events = s.fru.events ∧
    s.returnReport.fru.counters = s.fru.counters ∧ s.returnReport.fru.mask = s.fru.mask := by
  unfold returnReport
  split <;> exact ⟨rfl, rfl, rfl⟩

theorem returnCandidate_kept (s : State) (c : Candidate) : (s.returnCandidate c).fru.events = s.fru.events ∧
    (s.returnCandidate c).fru.counters = s.fru.counters ∧ (s.returnCandidate c).fru.mask = s.fru.mask := by
  cases c with
  | beacon => exact ⟨rfl, rfl, rfl⟩
  | mark => exact ⟨rfl, rfl, rfl⟩
  | report => exact returnReport_kept s

/-- Settles O41: the candidate goes back by its kind, and the line pair is left at once. -/
theorem lostArbitrationReturnsTheCandidate : Obligations.LostArbitrationReturnsTheCandidate := by
  intro s x hx
  rw [execArbitrationLost_sending hx]
  refine ⟨fun h => ?_, fun hb hs => ?_⟩
  · rw [if_neg]
    rintro ⟨hb, hs⟩
    obtain h | h := h
    · omega
    · simp [hs] at h
  · rw [if_pos ⟨hb, hs⟩]
    have hlpi : (s.endAttempt.returnCandidate x.candidate).lpi = { s.lpi with transmission := none } := by simp [endAttempt]
    obtain ⟨he, hc, hm⟩ := returnCandidate_kept s.endAttempt x.candidate
    refine ⟨_, rfl, hlpi, fun h hd received => ?_, fun e => ?_, fun e => ?_, fun e q hq => ?_, he, hc, hm, by simp⟩
    · exact ltx_reading_early (by rw [hlpi]) (by rw [hlpi]; exact hd) hb received
    · rw [e]; exact ⟨rfl, rfl⟩
    · rw [e]; exact ⟨rfl, rfl⟩
    · rw [e]
      have hr := returnReport_sending (s := s.endAttempt) hq
      exact ⟨(congrArg ltu hr).trans rfl, (congrArg fru hr).trans rfl⟩

theorem execOwnFrameAccepted_sending {x : Transmission} (h : s.lpi.transmission = some x) : exec .ownFrameAccepted s =
    .next (if x.frame.ticks ≤ x.bit then s.acceptOwnFrame x.candidate else s) := by
  change Host.Outcome.next _ = _
  rw [h]

theorem reportAccepted_counters (s : State) : s.reportAccepted.fru.counters = s.fru.counters := by
  unfold reportAccepted
  split <;> rfl

theorem acceptOwnFrame_lpi (s : State) (c : Candidate) : (s.acceptOwnFrame c).lpi =
    { s.lpi with transmission := none, faultCount := 0, decoder := .outside 0 } := by
  simp [acceptOwnFrame, endAttempt, closeFrame, setDecoder]

/-- Settles O43: the owner clears its candidate by its kind. -/
theorem ownFrameAcceptedClears : Obligations.OwnFrameAcceptedClears := by
  intro s x hx
  rw [execOwnFrameAccepted_sending hx]
  refine ⟨fun h => by rw [if_neg (by omega)], fun h => ?_⟩
  rw [if_pos h]
  refine ⟨_, rfl, acceptOwnFrame_lpi s _, fun e => ?_, fun e => ?_, fun e => ?_, ?_, by simp⟩
  · rw [e]; exact ⟨rfl, rfl, rfl⟩
  · rw [e]; exact ⟨by simp [acceptOwnFrame, clearCandidate], rfl, rfl⟩
  · rw [e]
    refine ⟨by simp [acceptOwnFrame, clearCandidate, endAttempt], by simp [acceptOwnFrame, clearCandidate], fun hn => ?_,
      fun p hp => ?_⟩
    · simp [acceptOwnFrame, clearCandidate, reportAccepted, hn]
    · simp [acceptOwnFrame, clearCandidate, reportAccepted, hp]
  · cases x.candidate with
    | beacon => rfl
    | mark => rfl
    | report => exact reportAccepted_counters _

end State
end Sys2Proof.Machine
end

section
/-! The step on an empty queue by run state, and the receive decoder (R137, R138, R144, R147). -/

namespace Sys2Proof.Machine

namespace State

variable {s : State}

/-! ### The step on an empty queue -/

theorem run_of_running (h : s.running = true) : s.cfl.run = .running := by simpa [running] using h

theorem step_tick (hp : s.pending = []) : step s = .next s.tick := by simp [step, hp]

theorem step_ltuTick (hp : s.pending = []) (hr : s.running = true) (ht : s.ltu.ticked = false) :
    step s = .next s.markTicked.ltuTick := by simp [step_tick hp, tick, run_of_running hr, ht]

theorem step_parts (hp : s.pending = []) (hr : s.running = true) (ht : s.ltu.ticked = true) :
    step s = .next s.runningParts.refreshLines.clearMarks.advanceBit := by
  simp [step_tick hp, tick, run_of_running hr, ht]

theorem step_halted (hp : s.pending = []) (hr : s.cfl.run = .halted) : step s = .next s.lpiTick.advanceBit := by
  simp [step_tick hp, tick, hr]

theorem step_reading (hp : s.pending = []) (hr : s.cfl.run = .configuring) {k : Nat} (hk : s.cfl.read = .reading k) :
    step s = .next (s.readTo (min s.cfl.memory.readTicks (k + 1))).advanceBit := by
  simp [step_tick hp, tick, hr, heldInReset, hk, readTick, readingTicks]

theorem step_held (hp : s.pending = []) (hr : s.cfl.run = .configuring) (hk : s.cfl.read = .notBegun) :
    step s = .next s := by simp [step_tick hp, tick, hr, heldInReset, hk]

theorem advanceBit_lpi (s : State) : s.advanceBit.lpi = s.lpi.nextBit := rfl

/-! ### The LTU's part and the decoder -/

theorem quietStep_decoder (s : State) : s.quietStep.lpi.decoder = s.lpi.decoder := by
  unfold quietStep
  split_ifs <;> rfl

theorem boundary_decoder (s : State) (byExpiry : Bool) (c : Word) :
    (s.boundary byExpiry c).lpi.decoder = s.lpi.decoder := by
  unfold boundary
  rw [quietStep_decoder]
  simp

theorem advance_decoder (s : State) : s.advance.lpi.decoder = s.lpi.decoder := by
  unfold advance
  split
  · rfl
  · exact boundary_decoder (s.mapLtu _) true _

theorem ltuTick_decoder (s : State) : s.ltuTick.lpi.decoder = s.lpi.decoder := by
  unfold ltuTick
  split
  · split
    · split
      · exact boundary_decoder (s.mapLtu _) false _
      · rfl
    · rfl
  · split
    · rfl
    · exact advance_decoder s

/-! ### Start bits -/

theorem readsNoFrame_of (h : s.heldInReset = false) (hx : s.lpi.transmission = none) : s.readsNoFrame = false := by
  simp [readsNoFrame, h, hx]

theorem execReceiveDecoderOutsideFrame_held (h : s.heldInReset = true) :
    exec .receiveDecoderOutsideFrame s = .next s := by
  change Host.Outcome.next _ = _
  rw [if_pos h]

theorem execStartBitRead_deaf (h : s.readsNoFrame = true) : exec .startBitRead s = .next s := by
  change Host.Outcome.next _ = _
  rw [if_pos h]

theorem execReceiveDecoderOutsideFrame_unsynchronised (h : s.heldInReset = false) {run : Nat} {dominant : Bool}
    (hd : s.lpi.decoder = .unsynchronised run dominant) :
    exec .receiveDecoderOutsideFrame s = .next (s.setDecoder (.outside Config.gapBits)) := by
  change Host.Outcome.next _ = _
  rw [if_neg (by simp [h]), hd]

theorem execReceiveDecoderOutsideFrame_outside (h : s.heldInReset = false) {run : Nat}
    (hd : s.lpi.decoder = .outside run) : exec .receiveDecoderOutsideFrame s = .next s := by
  change Host.Outcome.next _ = _
  rw [if_neg (by simp [h]), hd]

theorem execStartBitRead_unsynchronised (h : s.heldInReset = false) (hx : s.lpi.transmission = none) {run : Nat}
    {dominant : Bool} (hd : s.lpi.decoder = .unsynchronised run dominant) :
    exec .startBitRead s = .next (s.setDecoder (.unsynchronised 0 true)) := by
  change Host.Outcome.next _ = _
  rw [if_neg (by simp [readsNoFrame_of h hx]), hd]

theorem execStartBitRead_outside (h : s.heldInReset = false) (hx : s.lpi.transmission = none) {run : Nat}
    (hd : s.lpi.decoder = .outside run) : exec .startBitRead s = .next s.readStartBit := by
  change Host.Outcome.next _ = _
  rw [if_neg (by simp [readsNoFrame_of h hx]), hd]

/-- R137, R147: the station drives a malformed frame's acceptance bit, and no other bit. -/
theorem ltx_reading_iff {bit : Nat} (ht : s.lpi.transmission = none) (hd : s.lpi.decoder = .inside bit true)
    (hs : s.lpi.state ≠ .silent) (f : WireFrame) : s.ltx (some f) = false ↔ f.malformed = true ∧ bit + 2 = f.ticks := by
  have hticks : 31 ≤ f.ticks := by unfold WireFrame.ticks; omega
  have hbit : bit = acceptanceBit f ↔ bit + 2 = f.ticks := by unfold acceptanceBit; omega
  simp [ltx, ht, drivesRejectMark, hd, hs, hbit]

end State

/-- Settles O45: the decoder's own steps, the ticks that move it, and the two commands that place it. -/
theorem decoderFollowsFrames : Obligations.DecoderFollowsFrames := by
  refine ⟨fun run => ⟨fun h => ?_, fun h => ?_, rfl, fun h => ?_, fun h => ?_⟩, fun bit heeded => ⟨fun h => ?_, fun h => ?_⟩,
    fun left => ⟨fun h => ?_, fun h => ?_⟩, fun s hp => ⟨fun h => ?_, fun hr ht => ?_, fun k hr hk => ?_⟩,
    fun s hh => ⟨fun run dominant hd => ⟨?_, fun hx => ?_⟩, fun run hd => ⟨?_, fun hx => ?_⟩⟩, fun s hh => ⟨?_, ?_⟩,
    fun s bit f ht hd hs => State.ltx_reading_iff ht hd hs f⟩
  · simp [Decoder.advance, Config.resyncBits, Nat.not_le.2 h]
  · simp [Decoder.advance, Config.resyncBits, Config.gapBits, h]
  · simp [Decoder.advance, Config.gapBits, h]
  · simp [Decoder.advance, Config.gapBits]; omega
  · simp [Decoder.advance, Config.longestFrame]; omega
  · simp [Decoder.advance, Config.longestFrame]; omega
  · simp [Decoder.advance, Nat.not_le.2 h]
  · simp [Decoder.advance, h]
  · obtain hr | ⟨hr, ht⟩ := h
    · exact ⟨_, _, State.step_halted hp hr, State.lpiTick_part s, rfl⟩
    · refine ⟨_, _, State.step_parts hp hr ht, State.lpiTick_part s, ?_⟩
      rw [State.opening_lpi, State.advanceBit_lpi, State.runningParts_lpi]
      rfl
  · exact ⟨_, State.step_ltuTick hp hr ht, State.ltuTick_decoder _⟩
  · exact ⟨_, State.step_reading hp hr hk, rfl⟩
  · exact State.execReceiveDecoderOutsideFrame_unsynchronised hh hd
  · exact State.execStartBitRead_unsynchronised hh hx hd
  · exact State.execReceiveDecoderOutsideFrame_outside hh hd
  · rw [State.execStartBitRead_outside hh hx hd]
    refine ⟨s.readStartBit, s.lpi.state != .silent, rfl, rfl, by simp, fun hm => ?_, fun hm => ?_⟩
    · simp [State.readStartBit, State.muted, hm]
    · simp [State.readStartBit, State.muted, hm]
  · exact State.execReceiveDecoderOutsideFrame_held hh
  · exact State.execStartBitRead_deaf (by simp [State.readsNoFrame, hh])

end Sys2Proof.Machine
end

section
/-! Distances (R1, R69): signed differences of 32 bits, of cycle numbers and of travel positions, where they do not
wrap. -/

namespace Sys2Proof.Machine

/-! ### Signed differences -/

/-- A signed difference moved on, short of the wrap. -/
theorem toInt_add_ofInt {x : Word} {k : Int} (h1 : -2147483648 ≤ x.toInt + k) (h2 : x.toInt + k < 2147483648) :
    (x + BitVec.ofInt 32 k).toInt = x.toInt + k := by
  have e : x + BitVec.ofInt 32 k = BitVec.ofInt 32 (x.toInt + k) := by rw [BitVec.ofInt_add, BitVec.ofInt_toInt]
  rw [e, BitVec.toInt_ofInt_eq_self (by norm_num) (by norm_num; omega) (by norm_num; omega)]

theorem toInt_add_ofNat {x : Word} {k : Nat} (h : x.toInt + k < 2147483648) :
    (x + BitVec.ofNat 32 k).toInt = x.toInt + k := by
  have := x.le_toInt
  rw [← BitVec.ofInt_natCast, toInt_add_ofInt (by norm_num at this; omega) h]

/-- Two words moved on by two amounts. -/
theorem toInt_shift {x y : Word} {a b : Nat} (h1 : -2147483648 ≤ (x - y).toInt + ((a : Int) - b))
    (h2 : (x - y).toInt + ((a : Int) - b) < 2147483648) :
    (x + BitVec.ofNat 32 a - (y + BitVec.ofNat 32 b)).toInt = (x - y).toInt + ((a : Int) - b) := by
  have e : x + BitVec.ofNat 32 a - (y + BitVec.ofNat 32 b) = x - y + BitVec.ofInt 32 ((a : Int) - b) := by
    rw [sub_eq_add_neg (a : Int), BitVec.ofInt_add, BitVec.ofInt_neg, BitVec.ofInt_natCast, BitVec.ofInt_natCast]
    ring
  rw [e, toInt_add_ofInt h1 h2]

/-! ### Line instants (R1) -/

/-- R1: a delay added to the end of a distance adds to it. -/
theorem distance_add {p : Nat} {i j : Instant} {d : Nat}
    (h : (j.cycle - i.cycle).toInt + ((j.phase + d) / p : Nat) < 2147483648) :
    Instant.distance p i (Instant.add p j d) = Instant.distance p i j + d := by
  have hc : (j.cycle + BitVec.ofNat 32 ((j.phase + d) / p) - i.cycle).toInt =
      (j.cycle - i.cycle).toInt + ((j.phase + d) / p : Nat) := by
    rw [← toInt_add_ofNat h]
    congr 1
    ring
  have hdiv := Nat.mod_add_div (j.phase + d) p
  have hcast : (((j.phase + d) % p : Nat) : Int) + (p : Int) * ((j.phase + d) / p : Nat) = j.phase + d := by
    exact_mod_cast hdiv
  simp only [Instant.distance, Instant.add, hc]
  linarith

/-- R23, R85: the cycles by which one shift carries two instants on differ by at most one. -/
theorem carry_le {p : Nat} (hp : 0 < p) {a b d : Nat} (hb : b < p) : (b + d) / p ≤ (a + d) / p + 1 := by
  rw [← Nat.add_div_right _ hp]
  exact Nat.div_le_div_right (by omega)

/-- R23, R85: one shift of both ends keeps a distance. -/
theorem distance_shift {p : Nat} (hp : 0 < p) {i j : Instant} (d : Nat) (hi : i.phase < p) (hj : j.phase < p)
    (h1 : -2147483648 < (j.cycle - i.cycle).toInt) (h2 : (j.cycle - i.cycle).toInt < 2147483647) :
    Instant.distance p (Instant.add p i d) (Instant.add p j d) = Instant.distance p i j := by
  have c1 := carry_le hp (a := i.phase) (d := d) hj
  have c2 := carry_le hp (a := j.phase) (d := d) hi
  have hc := toInt_shift (x := j.cycle) (y := i.cycle) (a := (j.phase + d) / p) (b := (i.phase + d) / p)
    (by omega) (by omega)
  have ei : (((i.phase + d) % p : Nat) : Int) + (p : Int) * ((i.phase + d) / p : Nat) = i.phase + d := by
    exact_mod_cast Nat.mod_add_div (i.phase + d) p
  have ej : (((j.phase + d) % p : Nat) : Int) + (p : Int) * ((j.phase + d) / p : Nat) = j.phase + d := by
    exact_mod_cast Nat.mod_add_div (j.phase + d) p
  simp only [Instant.distance, Instant.add, hc]
  linarith

/-- Settles O9: a delay is a distance, and one shift of both ends keeps theirs. -/
theorem instantArithmetic : Obligations.InstantArithmetic := by
  refine ⟨fun p i d hp _ hd => ⟨?_, Nat.mod_lt _ hp⟩, fun p i j d hp hi hj h1 h2 => distance_shift hp d hi hj h1 h2⟩
  rw [distance_add (by rw [BitVec.sub_self, BitVec.toInt_zero]; omega), State.distance_self, zero_add]

end Sys2Proof.Machine
end

section
/-! The turns of a pass, admissions and cancellations (R70 to R83, R92, R96). -/

namespace Sys2Proof.Machine

variable {δ : Type} {r : DomainRules δ} {templates : Table Template 16} {p : Pool δ} {a : Action δ}
  {rest : List (Action δ)}

/-! ### Passes -/

theorem pass_eq_passN (h : p.schedule = a :: rest) : p.pass r templates =
    Pool.passN r templates (4 * rest.length + 3 + 1) p := by
  unfold Pool.pass
  rw [h, List.length_cons]
  congr 1

/-- R76: a due head is fired, and the pass goes on. -/
theorem pass_of_due (h : p.schedule = a :: rest) (hd : r.isDue a.due = true) :
    p.pass r templates = (fireHead r templates a rest p).pass r templates := by
  have hlt := fireHead_stepsLeft r templates a rest p
  have hle : stepsLeft (a :: rest) ≤ 4 * rest.length + 3 + 1 := by
    have := stepsLeft_le (a :: rest)
    rw [List.length_cons] at this
    omega
  rw [pass_eq_passN h, Pool.passN, h]
  dsimp only
  rw [if_pos hd]
  exact Pool.passN_fuel r templates _ _ _ (by omega) (stepsLeft_le _)

/-- R76: a pass whose head is not due is over. -/
theorem pass_of_not_due (h : p.schedule = a :: rest) (hd : r.isDue a.due = false) : p.pass r templates = p := by
  rw [pass_eq_passN h, Pool.passN, h]
  dsimp only
  rw [if_neg (by simp [hd])]

/-- R76: a pass ends with its schedule empty or its head not due. -/
theorem pass_head (r : DomainRules δ) (templates : Table Template 16) (p : Pool δ) :
    ∀ a rest, (p.pass r templates).schedule = a :: rest → r.isDue a.due = false := by
  induction hn : stepsLeft p.schedule using Nat.strong_induction_on generalizing p with
  | _ n ih =>
    intro b rest' hb
    cases hs : p.schedule with
    | nil => simp [Pool.pass_nil r templates p hs, hs] at hb
    | cons a rest =>
      cases hd : r.isDue a.due with
      | true =>
        have hlt := fireHead_stepsLeft r templates a rest p
        rw [pass_of_due hs hd] at hb
        exact ih _ (by rw [← hn, hs]; exact hlt) _ rfl b rest' hb
      | false =>
        rw [pass_of_not_due hs hd, hs] at hb
        cases hb
        exact hd

/-- Settles O26: the three turns of a pass, and its end. -/
theorem passEndsWithNoHeadDue : Obligations.PassEndsWithNoHeadDue := fun _ r templates p =>
  ⟨fun _ _ h hd => pass_of_due h hd, fun _ _ h hd => pass_of_not_due h hd, Pool.pass_nil r templates p,
    pass_head r templates p⟩

/-! ### One turn (R77 to R79) -/

theorem fireHead_dcu (r : DomainRules δ) (templates : Table Template 16) (a : Action δ) (rest : List (Action δ))
    (p : Pool δ) : (fireHead r templates a rest p).dcu = p.dcu.fire
      ((templates.get a.template).steps.get a.next).op ((templates.get a.template).steps.get a.next).line := by
  unfold fireHead
  dsimp only
  split <;> rfl

/-- R78: the last step in use retires the action. -/
theorem fireHead_last (h : (templates.get a.template).lastStep a.next = true) :
    (fireHead r templates a rest p).schedule = rest ∧ (fireHead r templates a rest p).free = a.slot :: p.free := by
  unfold fireHead
  dsimp only
  rw [if_pos h]
  exact ⟨rfl, rfl⟩

/-- R77: the action that a turn files again. -/
def Action.refiled (r : DomainRules δ) (step : TemplateStep) (a : Action δ) : Action δ :=
  { a with due := r.addGap a.due step.gap.toNat, next := nextIndex a.next, held := heldAfter step.op step.line a.held }

/-- R77, R79: any other step files it again. -/
theorem fireHead_refiles (h : (templates.get a.template).lastStep a.next = false) :
    (fireHead r templates a rest p).schedule =
        fileAction r (a.refiled r ((templates.get a.template).steps.get a.next)) rest ∧
      (fireHead r templates a rest p).free = p.free := by
  unfold fireHead
  dsimp only
  rw [if_neg (by simp [h])]
  exact ⟨rfl, rfl⟩

theorem lastStep_iff (t : Template) (k : Fin 4) : t.lastStep k = true ↔ t.count ≤ k.val + 1 ∨ k.val = 3 :=
  decide_eq_true_iff

theorem Dcu.fire_line_ne (d : Dcu) (op : StepOp) {n m : LineId} (h : n ≠ m) :
    (d.fire op m).lines.get n = d.lines.get n := by
  cases op with
  | noOp => rfl
  | assert => exact Table.get_modify_ne _ _ h
  | release => exact Table.get_modify_ne _ _ h

/-- Settles O27: the schedule and the free stack by the step's place, the claims by its op. -/
theorem turnFiresOneStep : Obligations.TurnFiresOneStep := by
  intro δ r templates a rest p t step
  refine ⟨fun h => fireHead_last ((lastStep_iff _ _).2 (.inl h.ge)), fun h h3 => ?_, fun n hn => ?_, fun hop => ?_,
    fun hop => ?_, fun hop => ?_⟩
  · have hlast : t.lastStep a.next = false := Bool.eq_false_iff.2 fun e => by
      obtain e | e := (lastStep_iff _ _).1 e <;> omega
    obtain ⟨h1, h2⟩ := fireHead_refiles (r := r) (rest := rest) (p := p) hlast
    refine ⟨_, h1, h2, rfl, rfl, rfl, ?_, fun n => ?_⟩
    · simp [Action.refiled, nextIndex]; omega
    · change (heldAfter step.op step.line a.held).get n = _
      rw [heldAfter_get]
      by_cases hn : n = step.line <;> cases step.op <;> simp [hn]
  · rw [fireHead_dcu, Dcu.fire_line_ne _ _ hn]
  · have hd : (fireHead r templates a rest p).dcu.lines.get step.line = (p.dcu.lines.get step.line).addClaim := by
      rw [fireHead_dcu, hop]
      exact Table.get_modify_self _ _ _
    exact ⟨by rw [hd, DriveLine.addClaim_claim], hd⟩
  · have hd : (fireHead r templates a rest p).dcu.lines.get step.line = (p.dcu.lines.get step.line).dropClaim := by
      rw [fireHead_dcu, hop]
      exact Table.get_modify_self _ _ _
    exact ⟨by rw [hd, DriveLine.dropClaim_claim], hd⟩
  · rw [fireHead_dcu, hop]
    rfl

namespace State

variable {s : State}

/-! ### Admissions (R70 to R73) -/

/-- R76: a pass of the time schedule leaves no head due. -/
theorem timePass_noHeadDue (s : State) : s.timePass.NoTimeHeadDue := fun a rest h =>
  pass_head s.timeDomain s.sbs.templates s.timePool a rest h

/-- R76: a pass of the travel schedule leaves no head due. -/
theorem travelPass_noHeadDue (s : State) : s.travelPass.NoTravelHeadDue := fun a rest h => by
  have := pass_head s.travelDomain s.sbs.templates s.travelPool a rest h
  simpa [travelDomain, travelRules] using this

theorem admitTime_missed {due : Instant} (template : Fin 16)
    (h : (s.timeLateLimit : Int) < Instant.distance s.period due s.now) :
    s.admitTime due template = s.refuseMissed := if_pos h

theorem admitTravel_missed {due : Word} (template : Fin 16)
    (h : (s.travelLateLimit : Int) < signedDifference s.tvu.position due) :
    s.admitTravel due template = s.refuseMissed := if_pos h

/-- R73: a request filed behind what is due before it, in the slot at the top of the free stack. -/
def filedTime (s : State) (due : Instant) (template : Fin 16) (slot : Fin 48) (free : List (Fin 48)) : State :=
  { s with asc := { s.asc with
    free := free, time := fileAction s.timeDomain (newAction slot due template) s.asc.time } }

def filedTravel (s : State) (due : Word) (template : Fin 16) (slot : Fin 48) (free : List (Fin 48)) : State :=
  { s with asc := { s.asc with
    free := free, travel := fileAction s.travelDomain (newAction slot due template) s.asc.travel } }

theorem admitTime_filed {due : Instant} (template : Fin 16) {slot : Fin 48} {free : List (Fin 48)}
    (hf : s.asc.free = slot :: free) (h : Instant.distance s.period due s.now ≤ s.timeLateLimit) :
    s.admitTime due template = if 0 < Instant.distance s.period due s.now then
      ((s.filedTime due template slot free).count .lateFires).timePass else s.filedTime due template slot free := by
  unfold admitTime
  rw [if_neg (by simpa [timeLateness] using h), hf]
  rfl

theorem admitTravel_filed {due : Word} (template : Fin 16) {slot : Fin 48} {free : List (Fin 48)}
    (hf : s.asc.free = slot :: free) (h : signedDifference s.tvu.position due ≤ s.travelLateLimit) :
    s.admitTravel due template = if 0 < signedDifference s.tvu.position due then
      ((s.filedTravel due template slot free).count .lateFires).travelPass else s.filedTravel due template slot free := by
  unfold admitTravel
  rw [if_neg (by simpa [travelLateness] using h), hf]
  rfl

/-- Settles O28: an admission by its lateness. -/
theorem admissionOutcomes : Obligations.AdmissionOutcomes := by
  refine fun s k => ⟨fun due h => admitTime_missed k h, fun due h => admitTravel_missed k h, ?_, ?_⟩
  · intro due slot free hf late behind filed hlate
    refine ⟨fun h0 => ?_, fun h0 => ?_⟩
    · rw [admitTime_filed k hf hlate, if_neg (by omega)]
      rfl
    · rw [admitTime_filed k hf hlate, if_pos h0]
      exact ⟨rfl, timePass_noHeadDue _, rfl⟩
  · intro due slot free hf late behind filed hlate
    refine ⟨fun h0 => ?_, fun h0 => ?_⟩
    · rw [admitTravel_filed k hf hlate, if_neg (by omega)]
      rfl
    · rw [admitTravel_filed k hf hlate, if_pos h0]
      exact ⟨rfl, travelPass_noHeadDue _, rfl⟩

end State
end Sys2Proof.Machine
end

section
/-! The commands of line time that cross a boundary or take a pass (R6, R8, R9, R10, R76). -/

namespace Sys2Proof.Machine.State

variable {s t u : State}

/-! ### What a leap hands on -/

theorem boundaryTaken_of_blocks {c : Word} (h : s.BoundaryTaken u c) (hb : t.sbs = u.sbs) (hv : t.tvu = u.tvu)
    (hl : t.llu = u.llu) : s.BoundaryTaken t c := by
  unfold BoundaryTaken entry line at *
  rw [hb, hv, hl]
  exact h

/-- R74: the pass at an instant of a state that has the schedule, the claims and the templates of another. -/
theorem passTaken_of (ha : u.asc = s.asc) (hd : u.dcu = s.dcu) (hk : u.sbs.templates = s.sbs.templates)
    (hp : u.period = s.period) : s.PassTaken u.timePass u.now := by
  have hpool : u.timePool.pass u.timeDomain u.sbs.templates =
      s.timePool.pass (timeRules s.period u.now) s.sbs.templates := by
    simp only [timePool, timeDomain, ha, hd, hk, hp]
  unfold PassTaken
  rw [← hpool]
  exact ⟨by rw [← ha]; rfl, rfl⟩

/-! ### The self-start (R6) -/

theorem startSelf_taken (s : State) : s.BoundaryTaken s.startSelf 0#32 :=
  boundary_taken s (s.mapLtu _) false _ rfl rfl rfl

theorem startSelf_quietStepTaken (s : State) : s.lpi.QuietStepTaken s.startSelf.lpi :=
  boundary_quietStepTaken (s.mapLtu _) false _

theorem execSelfStart_now (hr : s.running = true) (hs : s.ltu.sync = .listen) (ht : s.ltu.ticked = false)
    (hp : s.period ≤ s.now.phase + 1) (hj : s.joinWait ≤ s.ltu.listenCount + 1) :
    exec .selfStart s = .next s.markTicked.startSelf := by
  change Host.Outcome.next _ = _
  rw [if_pos ⟨listening_iff.2 ⟨hr, hs⟩, phaseEnds_iff.2 hp, joinWaitEnds_iff.2 hj, ht⟩]

/-- Settles O11: the self-start's LTU, and the boundary event for cycle 0. -/
theorem selfStartLocks : Obligations.SelfStartLocks := by
  intro s hr hs ht hp hj
  refine ⟨_, execSelfStart_now hr hs ht hp hj, ?_, startSelf_taken s.markTicked, startSelf_quietStepTaken s.markTicked,
    by simp⟩
  rw [startSelf_ltu]
  simp [markTicked, mapLtu, muted]

/-! ### The expiry of a cycle (R9) -/

theorem execCycleExpiry_now (hr : s.running = true) (hs : s.ltu.sync = .locked) (ht : s.ltu.ticked = false)
    (hh : s.ltu.hold = 0) (hp : s.period ≤ s.now.phase + 1) :
    exec .cycleExpiry s = .next s.markTicked.expireCycle := by
  change Host.Outcome.next _ = _
  rw [if_pos ⟨locked_iff.2 ⟨hr, hs⟩, hh, phaseEnds_iff.2 hp, ht⟩]

theorem expireCycle_now (s : State) : s.expireCycle.now = { cycle := s.now.cycle + 1#32, phase := 0 } := by
  rw [now, expireCycle_ltu]

theorem expireCycle_taken (s : State) : s.BoundaryTaken s.expireCycle (s.now.cycle + 1#32) :=
  boundaryTaken_of_blocks (boundary_taken s (s.mapLtu fun l => { l with
    instant := { cycle := s.now.cycle + 1#32, phase := 0 } }) true _ rfl rfl rfl) rfl rfl rfl

theorem expireCycle_passTaken (s : State) :
    s.PassTaken s.expireCycle { cycle := s.now.cycle + 1#32, phase := 0 } := by
  rw [← expireCycle_now]
  refine passTaken_of (u := (State.boundary (s.mapLtu _) true _).mapLtu _) (by simp) (by simp) ?_ ?_
  · rw [mapLtu_sbs, boundary_sbs]; rfl
  · exact period_of_params (by simp [mapLtu, boundary_ltu])

theorem expireCycle_noHeadDue (s : State) : s.expireCycle.NoTimeHeadDue := timePass_noHeadDue _

theorem expireCycle_lpi (h : s.lpi.state ≠ .muted) : s.expireCycle.lpi = s.lpi := (expireCycle_quietStepTaken s).1 h

theorem slotAfterExpiry_true {slot : BeaconSlot} (h : slot ≠ .sending) : slotAfterExpiry true slot = .empty := by
  cases slot <;> simp_all [slotAfterExpiry]

theorem slotAfterExpiry_false (slot : BeaconSlot) :
    slotAfterExpiry false slot = if slot = .sending then .sending else .offered := by
  cases slot <;> rfl

/-- R9: the slot behind an expiry follows the mute that it leaves. -/
theorem expireCycle_slot (s : State) :
    s.expireCycle.ltu.slot = slotAfterExpiry s.expireCycle.muted s.ltu.slot := by rw [expireCycle_ltu]

theorem expireCycle_ltu_of_slot (s : State) : s.markTicked.expireCycle.ltu = { s.ltu with
    instant := { cycle := s.now.cycle + 1#32, phase := 0 }, slot := s.markTicked.expireCycle.ltu.slot
    streak := if s.ltu.leadStray = true ∧ s.ltu.adopted = false then s.ltu.streak + 1 else 0
    leadStray := false, adopted := false, ticked := true } := by
  conv_lhs => rw [expireCycle_ltu, ← expireCycle_slot]
  simp [markTicked, mapLtu, now]

theorem expireCycle_slot_not_muted (h : s.lpi.state ≠ .muted) :
    s.expireCycle.ltu.slot = if s.ltu.slot = .sending then .sending else .offered := by
  have hm : s.expireCycle.muted = false := by simp [muted, expireCycle_lpi h, h]
  rw [expireCycle_slot, hm, slotAfterExpiry_false]

/-- Settles O12: the parts of an expiry outside MUTED. -/
theorem cycleExpiryBeginsTheCycle : Obligations.CycleExpiryBeginsTheCycle := by
  intro s hr hs ht hh hp hm
  refine ⟨_, execCycleExpiry_now hr hs ht hh hp, ?_, expireCycle_taken s.markTicked, expireCycle_passTaken s.markTicked,
    expireCycle_noHeadDue _, expireCycle_lpi (s := s.markTicked) hm, by simp⟩
  have hslot := expireCycle_slot_not_muted (s := s.markTicked) hm
  rw [expireCycle_ltu_of_slot, hslot]
  rfl

/-- Settles O13: the parts of an expiry in MUTED, by the quiet-cycle step. -/
theorem cycleExpiryInMute : Obligations.CycleExpiryInMute := by
  intro s hr hs ht hh hp hm hslot
  obtain ⟨-, h1, h2, h3⟩ := expireCycle_quietStepTaken s.markTicked
  have stays (e : s.markTicked.expireCycle.lpi.state = .muted) : s.markTicked.expireCycle.ltu.slot = .empty := by
    rw [expireCycle_slot, muted_iff.2 e]
    exact slotAfterExpiry_true hslot
  refine ⟨_, execCycleExpiry_now hr hs ht hh hp, expireCycle_now _, fun hf => ⟨h1 hm hf, stays (by rw [h1 hm hf]; exact hm)⟩,
    fun hf hq => ⟨h2 hm hf hq, stays (by rw [h2 hm hf hq]; exact hm)⟩, fun hf hq => ⟨h3 hm hf hq, ?_⟩, expireCycle_ltu_of_slot s,
    expireCycle_taken s.markTicked, expireCycle_passTaken s.markTicked, expireCycle_noHeadDue _, by simp⟩
  have hmuted : s.markTicked.expireCycle.muted = false := by simp [muted, h3 hm hf hq]
  rw [expireCycle_slot, hmuted, slotAfterExpiry_false]
  exact if_neg hslot

/-! ### An advance and its pass (R8, R76) -/

theorem advancePhase_passTaken (s : State) :
    s.PassTaken s.advancePhase { s.now with phase := s.now.phase + 1 } :=
  passTaken_of (u := s.mapLtu _) rfl rfl rfl rfl

theorem advance_of_lt (h : s.now.phase + 1 < s.period) : s.advance = s.advancePhase := if_pos h

theorem advance_of_le (h : s.period ≤ s.now.phase + 1) : s.advance = s.expireCycle := if_neg (by omega)

theorem nextInstant_of_lt (h : s.now.phase + 1 < s.period) :
    s.nextInstant = { s.now with phase := s.now.phase + 1 } := if_pos h

theorem nextInstant_of_le (h : s.period ≤ s.now.phase + 1) :
    s.nextInstant = { cycle := s.now.cycle + 1#32, phase := 0 } := if_neg (by omega)

theorem advance_passTaken (s : State) : s.PassTaken s.advance s.nextInstant := by
  obtain h | h := lt_or_ge (s.now.phase + 1) s.period
  · rw [advance_of_lt h, nextInstant_of_lt h]; exact advancePhase_passTaken s
  · rw [advance_of_le h, nextInstant_of_le h]; exact expireCycle_passTaken s

theorem advance_now (s : State) : s.advance.now = s.nextInstant := by
  obtain h | h := lt_or_ge (s.now.phase + 1) s.period
  · rw [advance_of_lt h, nextInstant_of_lt h]; rfl
  · rw [advance_of_le h, nextInstant_of_le h, expireCycle_now]

theorem advance_noHeadDue (s : State) : s.advance.NoTimeHeadDue := by
  unfold advance
  split
  · exact timePass_noHeadDue _
  · exact expireCycle_noHeadDue s

theorem execTimeHeadDue_now (hr : s.running = true) (hs : s.ltu.sync = .locked) (ht : s.ltu.ticked = false)
    (hh : s.ltu.hold = 0) {a : Action Instant} {rest : List (Action Instant)} (ha : s.asc.time = a :: rest)
    (hd : Instant.atOrBefore s.period a.due s.nextInstant = true) :
    exec .timeHeadDue s = .next s.markTicked.advance := by
  change Host.Outcome.next _ = _
  rw [if_pos ⟨locked_iff.2 ⟨hr, hs⟩, hh, by rw [headDueNext, ha]; exact hd, ht⟩]

/-- Settles O14: the advance, and its pass begun with the due head. -/
theorem timeHeadDueFires : Obligations.TimeHeadDueFires := by
  intro s a rest hr hs ht hh ha hd rules fired
  have hpass : s.timePool.pass rules s.sbs.templates = fired := pass_of_due (p := s.timePool) (r := rules) ha hd
  obtain ⟨hasc, hdcu⟩ := advance_passTaken s.markTicked
  have hnow : s.markTicked.advance.now = s.nextInstant := advance_now s.markTicked
  refine ⟨_, execTimeHeadDue_now hr hs ht hh ha hd, hnow, advance_noHeadDue _, ?_, ?_, by simp, by simp, by simp,
    by simp, ?_, advance_decoder _, ?_, fun hp => ?_, fun hp => ?_⟩
  · rw [← hpass]; exact hasc
  · rw [← hpass]; exact hdcu
  · exact advance_wireStands.1
  · obtain hp | hp := lt_or_ge (s.now.phase + 1) s.period
    · rw [advance_of_lt (s := s.markTicked) hp, nextInstant_of_lt hp]
      rfl
    · rw [advance_of_le (s := s.markTicked) hp, expireCycle_ltu, nextInstant_of_le hp]
      rfl
  · rw [advance_of_lt (s := s.markTicked) hp, nextInstant_of_lt hp]
    exact ⟨rfl, rfl, rfl, rfl, rfl⟩
  · rw [advance_of_le (s := s.markTicked) hp]
    exact expireCycle_taken s.markTicked

end Sys2Proof.Machine.State
end

section
/-! The beacons that a station takes (R7, R15 to R19, R22, R23). -/

namespace Sys2Proof.Machine.State

variable {s : State} {source : Address} {cycle : Word} {phase period : Half} {target : Instant}

theorem takeBeacon_of_listening (hl : s.ltu.sync = .listen) (hp : period.toNat = s.period)
    (hf : phase.toNat < period.toNat) :
    s.takeBeacon source cycle phase period = s.adoptInListen source (s.beaconTarget cycle phase) := by
  have hmatch : ¬ (period.toNat ≠ s.period ∨ period.toNat ≤ phase.toNat) := by omega
  rw [takeBeacon, if_neg hmatch, hl]

theorem testBeacon_of_ahead (h0 : 0 < Instant.distance s.period s.now target)
    (hw : Instant.distance s.period s.now target ≤ s.window) :
    s.testBeacon source target = s.adoptForward source target := if_pos ⟨h0, hw⟩

theorem testBeacon_of_behind (h0 : Instant.distance s.period s.now target ≤ 0)
    (hw : -(s.window : Int) ≤ Instant.distance s.period s.now target) :
    s.testBeacon source target = s.adoptBackward source (Instant.distance s.period s.now target).natAbs := by
  have hahead : ¬ (0 < Instant.distance s.period s.now target ∧
      Instant.distance s.period s.now target ≤ s.window) := by omega
  simp only [testBeacon, if_neg hahead, if_pos (And.intro hw h0)]

theorem testBeacon_of_merge (hw : (s.window : Int) < Instant.distance s.period s.now target)
    (hk : s.strayLimit ≤ s.ltu.streak) :
    s.testBeacon source target = s.mergeTo source target (Instant.distance s.period s.now target).toNat := by
  have hpos : 0 < Instant.distance s.period s.now target := by omega
  have habs : (Instant.distance s.period s.now target).natAbs = (Instant.distance s.period s.now target).toNat := by omega
  have hahead : ¬ (0 < Instant.distance s.period s.now target ∧
      Instant.distance s.period s.now target ≤ s.window) := by omega
  have hbehind : ¬ (-(s.window : Int) ≤ Instant.distance s.period s.now target ∧
      Instant.distance s.period s.now target ≤ 0) := by omega
  simp only [testBeacon, if_neg hahead, if_neg hbehind, if_pos hpos, if_neg (Nat.not_lt.2 hk), habs]

/-- Settles O16: adoption in LISTEN, with the boundary of the target's cycle. -/
theorem beaconAdoptedInListen : Obligations.BeaconAdoptedInListen := by
  intro s source cycle phase period hh hr hs hl hp hf target
  refine ⟨s.accepted.adoptInListen source target, ?_, ?_, ?_, ?_, by simp⟩
  · rw [exec_beacon_of_heeds hh hr hs, takeBeacon_of_listening (by simpa using hl) (by simpa using hp) hf,
      accepted_beaconTarget]
    rfl
  · rw [adoptInListen_ltu, accepted_ltu]
  · exact boundary_taken s (s.accepted.mapLtu _) false _ (by simp) (by simp) (by simp)
  · exact boundary_quietStepTaken (s.accepted.mapLtu _) false _

/-! ### Forward (R16) -/

theorem adoptForward_same (h : target.cycle = s.now.cycle) :
    s.adoptForward source target = (s.jumped source target).timePass := by
  rw [adoptForward_eq, if_pos h]

theorem adoptForward_crossing (h : target.cycle ≠ s.now.cycle) :
    s.adoptForward source target = ((s.jumped source target).boundary false target.cycle).timePass := by
  rw [adoptForward_eq, if_neg h]

theorem adoptForward_now (s : State) (source : Address) (target : Instant) :
    (s.adoptForward source target).now = target := by rw [now, adoptForward_ltu]

theorem adoptForward_passTaken (s : State) (source : Address) (target : Instant) :
    s.PassTaken (s.adoptForward source target) target := by
  by_cases h : target.cycle = s.now.cycle
  · rw [adoptForward_same h]
    exact passTaken_of (u := s.jumped source target) rfl rfl rfl rfl
  · rw [adoptForward_crossing h]
    have hnow : ((s.jumped source target).boundary false target.cycle).now = target := boundary_now _ _ _
    have hpass : s.PassTaken ((s.jumped source target).boundary false target.cycle).timePass
        ((s.jumped source target).boundary false target.cycle).now :=
      passTaken_of (by simp) (by simp) (by rw [boundary_sbs]; rfl) (boundary_period _ _ _)
    rwa [hnow] at hpass

theorem adoptForward_taken (h : target.cycle ≠ s.now.cycle) :
    s.BoundaryTaken (s.adoptForward source target) target.cycle := by
  rw [adoptForward_crossing h]
  exact boundaryTaken_of_blocks (boundary_taken s (s.jumped source target) false _ rfl rfl rfl) rfl rfl rfl

theorem adoptForward_quietStepTaken (h : target.cycle ≠ s.now.cycle) :
    s.lpi.QuietStepTaken (s.adoptForward source target).lpi := by
  rw [adoptForward_crossing h]
  exact boundary_quietStepTaken (s.jumped source target) false _

theorem boundaryTaken_congr {t u : State} {c : Word} (h : u.BoundaryTaken t c) (hb : u.sbs = s.sbs)
    (hv : u.tvu = s.tvu) (hl : u.llu = s.llu) : s.BoundaryTaken t c := by
  unfold BoundaryTaken entry functionOf line at *
  rwa [hb, hv, hl] at h

theorem passTaken_congr {t u : State} {i : Instant} (h : u.PassTaken t i) (ha : u.asc = s.asc) (hd : u.dcu = s.dcu)
    (hb : u.sbs = s.sbs) (hp : u.period = s.period) : s.PassTaken t i := by
  unfold PassTaken timePool at *
  rwa [ha, hd, hb, hp] at h

theorem adoptForward_noHeadDue (s : State) (source : Address) (target : Instant) :
    (s.adoptForward source target).NoTimeHeadDue := by
  rw [adoptForward_eq]
  exact timePass_noHeadDue _

/-- Settles O17: a forward adoption, within the cycle and into another. -/
theorem beaconAdoptedForward : Obligations.BeaconAdoptedForward := by
  intro s source cycle phase period hh hr hs hl hp hf target h0 hw
  refine ⟨s.accepted.adoptForward source target, ?_, ?_, fun hc => ?_, fun hc => ⟨?_, ?_⟩, ?_, adoptForward_noHeadDue _ _ _, ?_⟩
  · have htest : s.accepted.testBeacon source target = s.accepted.adoptForward source target :=
      testBeacon_of_ahead (by simpa using h0) (by simpa using hw)
    rw [exec_beacon_of_locked hh hr hs hl hp hf]
    exact congrArg _ htest
  · rw [adoptForward_ltu, accepted_ltu, accepted_now]
    rfl
  · rw [adoptForward_same (by simpa using hc)]
    exact ⟨accepted_sbs s, accepted_tvu s, accepted_llu s, rfl⟩
  · exact boundaryTaken_congr (adoptForward_taken (by simpa using hc)) (accepted_sbs s) (accepted_tvu s) (accepted_llu s)
  · exact adoptForward_quietStepTaken (by simpa using hc)
  · exact passTaken_congr (adoptForward_passTaken _ _ _) (accepted_asc s) (accepted_dcu s) (accepted_sbs s)
      (accepted_period s)
  · simp

/-! ### Backward (R17) -/

/-- Settles O18: a backward adoption is a hold of the distance. -/
theorem beaconAdoptedBackward : Obligations.BeaconAdoptedBackward := by
  intro s source cycle phase period hh hr hs hl hp hf target h0 hw
  refine ⟨s.accepted.adoptBackward source (Instant.distance s.period s.now target).natAbs, ?_, ?_, ?_, ?_⟩
  · have htest : s.accepted.testBeacon source target = s.accepted.adoptBackward source
        (Instant.distance s.accepted.period s.accepted.now target).natAbs :=
      testBeacon_of_behind (by simpa using h0) (by simpa using hw)
    rw [accepted_period, accepted_now] at htest
    rw [exec_beacon_of_locked hh hr hs hl hp hf]
    exact congrArg _ htest
  · rw [adoptBackward_ltu]
    exact Int.ofNat_natAbs_of_nonpos h0
  · rw [adoptBackward_ltu, accepted_ltu]
    rfl
  · exact ⟨accepted_sbs s, accepted_asc s, accepted_dcu s, accepted_tvu s, accepted_llu s, accepted_mku s, rfl, rfl,
      accepted_srh s, accepted_cfl s⟩

/-! ### Merge (R22, R23) -/

/-- R23, R124, R131: a line behind a merge, with the pulse of its boundary. -/
theorem mergeTo_line (s : State) (source : Address) (target : Instant) (k : Nat) (n : LineId) :
    (s.mergeTo source target k).line n = if target.cycle = s.now.cycle then (s.line n).shiftRecord s.period k
      else ((s.line n).shiftRecord s.period k).startPulse := by
  have hm : (s.merged source target k).line n = (s.line n).shiftRecord s.period k := line_mapLines s n _
  rw [mergeTo_eq]
  split
  · exact hm
  · rw [boundary_line, hm]

theorem shiftRecord_settings (l : LocalLine) (p k : Nat) : (l.shiftRecord p k).settings = l.settings := rfl

theorem startPulse_eq (l : LocalLine) : l.startPulse = { l with
    pulse := if l.settings.function = .cycleOut then l.settings.pulseWidth else l.pulse
    pulseCounted := if l.settings.function = .cycleOut then true else l.pulseCounted } := by
  unfold LocalLine.startPulse
  split <;> rfl

theorem boundary_entry_eq (s : State) (byExpiry : Bool) (c : Word) (e : Fin 64) :
    (s.boundary byExpiry c).entry e =
      { s.entry e with delay := (s.entry e).shadow.getD (s.entry e).delay, shadow := none } := by
  simp [entry, boundary_sbs, shadowLoad]

/-- R111: a boundary for the cycle that the history's newest entry names appends nothing. -/
theorem mergeTo_tvu (s : State) (source : Address) (target : Instant) (k : Nat) :
    (s.mergeTo source target k).tvu = (s.historyRestart target.cycle).tvu := by
  rw [mergeTo_eq]
  split
  · rfl
  · rw [boundary_tvu, historyAppend]
    rw [if_pos]
    · rfl
    · rfl

/-- Settles O19: a merge, within the cycle and into another. -/
theorem beaconMerge : Obligations.BeaconMerge := by
  intro s source cycle phase period hh hr hs hl hp hf hk target d hw
  refine ⟨s.accepted.mergeTo source target d.toNat, ?_, ?_, ?_, ?_, ?_, ?_, fun n => ?_, fun e => ?_, ?_, ?_, fun hc => ?_,
    fun hc => ?_, ?_, by simp, by simp⟩
  · have htest : s.accepted.testBeacon source target = s.accepted.mergeTo source target
        (Instant.distance s.accepted.period s.accepted.now target).toNat :=
      testBeacon_of_merge (by simpa using hw) (by simpa using hk)
    rw [accepted_period, accepted_now] at htest
    rw [exec_beacon_of_locked hh hr hs hl hp hf]
    exact congrArg _ htest
  · rw [mergeTo_ltu, accepted_ltu]
    rfl
  · rw [mergeTo_asc]
    simp [shiftTimeSchedule]
  · simp
  · rw [mergeTo_eq, accepted_now]
    split <;> simp [shiftQueue]
  · rw [mergeTo_tvu]
    simp [historyRestart]
  · rw [mergeTo_line, accepted_line, accepted_now, accepted_period, startPulse_eq, shiftRecord_settings]
    by_cases hc : target.cycle = s.now.cycle
    · simp [hc, LocalLine.shiftRecord]
    · simp [hc, LocalLine.shiftRecord, functionOf]
  · rw [mergeTo_eq, accepted_now]
    split
    · simp [entry]
    · rw [boundary_entry_eq]
      simp [entry]
  · rw [mergeTo_eq]
    split
    · simp
    · rw [boundary_sbs]; simp [shadowLoad]
  · exact (mergeTo_distribution _ source target d.toNat).1.trans (by rw [accepted_sbs])
  · rw [mergeTo_eq, if_pos (by simpa using hc)]
    rfl
  · rw [mergeTo_eq, if_neg (by simpa using hc)]
    exact boundary_quietStepTaken (s.accepted.merged source target d.toNat) false _
  · rw [mergeTo_eq]
    split
    · rfl
    · rw [boundary_fru]; rfl

end Sys2Proof.Machine.State
end

section
/-! Frames received: what each class does in a station that heeds it, and the frames that reach no block (R147 to
R149, R153, R172, R173). -/

namespace Sys2Proof.Machine.State

variable {s : State} {i : Instr} {source : Address} {target : Byte} {tag : Half}

/-! ### Dispatch -/

/-- R149: the frame of another party goes to its dispatch in the state that has accepted it. -/
theorem receive_other (hh : s.Heeds i) (hs : source ≠ s.cfl.address) (dispatch : State → State) :
    s.receiveFrame i (acceptFrame source dispatch) = dispatch s.accepted := by
  rw [receiveFrame_heeds s hh, acceptFrame_other s _ hs]

/-- R148: a frame with the station's own address goes no further than its flag. -/
theorem receive_own (hh : s.Heeds i) (hs : source = s.cfl.address) (dispatch : State → State) :
    s.receiveFrame i (acceptFrame source dispatch) = s.accepted.setFlag .addressClash := by
  rw [receiveFrame_heeds s hh, acceptFrame_own s _ hs]

/-- R149: a class that only a RUNNING station dispatches. -/
theorem receive_running (hh : s.Heeds i) (hr : s.running = true) (hs : source ≠ s.cfl.address) (work : State → State) :
    s.receiveFrame i (acceptFrame source (whenRunning work)) = work s.accepted := by
  rw [receive_other hh hs, whenRunning_accepted, if_pos hr]

theorem receive_not_running (hh : s.Heeds i) (hr : s.running = false) (hs : source ≠ s.cfl.address)
    (work : State → State) : s.receiveFrame i (acceptFrame source (whenRunning work)) = s.accepted := by
  rw [receive_other hh hs, whenRunning_accepted, if_neg (by simp [hr])]

/-- R137: a frame that comes before one of its length can close is none. -/
theorem receiveFrame_early {f : WireFrame} {bit : Nat} {heeded : Bool} (hi : i.wireFrame = some f)
    (hd : s.lpi.decoder = .inside bit heeded) (hb : bit < f.ticks) (work : State → State) :
    s.receiveFrame i work = s := by
  have hc : closesNow i bit = false := by simp [closesNow_of_frame hi, hb]
  unfold receiveFrame
  split
  · rfl
  · rw [hd]
    simp [hc]

theorem not_running_of_halted (h : s.cfl.run = .halted) : s.running = false := by simp [running, h]

/-! ### Requests (R172, R173) -/

theorem takeRequest_of_other {act : State → State} (ht : s.addressed target = false) :
    s.takeRequest target tag act = s := by rw [takeRequest, if_neg (by simp [ht])]

theorem takeRequest_of_refused {act : State → State} (ht : s.addressed target = true)
    (hk : tagAccepted s.srh.lineTag tag = false) : s.takeRequest target tag act = s.refuseRequest := by
  rw [takeRequest, if_pos ht, if_neg (by simp [hk])]

theorem addressed_iff : s.addressed target = true ↔ target = s.cfl.address.setWidth 8 ∨ target = 255#8 := by
  simp [addressed, Config.targetAll]

theorem tagAccepted_iff {t : Half} : tagAccepted (some t) tag = true ↔ t = 0x0000#16 ∨ (t ≠ 0xFFFF#16 ∧ t = tag) := by
  unfold tagAccepted
  dsimp only
  split_ifs with h0 hf
  · simp [h0]
  · simp [hf]
  · simp [h0, hf]

/-- R172: a request in RUNNING, by its target and its tag. -/
theorem answers_of_request {t : Half} {act : State → State} (hr : s.running = true) (hs : source ≠ s.cfl.address)
    (hk : s.srh.lineTag = some t) (he : exec i s =
      .next (s.receiveFrame i (acceptFrame source (whenRunning fun u => u.takeRequest target tag act)))) (hh : s.Heeds i) :
    (target ≠ s.cfl.address.setWidth 8 ∧ target ≠ 255#8 → exec i s = .next s.accepted) ∧
    (¬(target ≠ s.cfl.address.setWidth 8 ∧ target ≠ 255#8) ∧ (t = 0xFFFF#16 ∨ (t ≠ 0x0000#16 ∧ t ≠ tag)) →
      exec i s = .next s.accepted.refuseRequest) ∧
    (¬(target ≠ s.cfl.address.setWidth 8 ∧ target ≠ 255#8) ∧ (t = 0x0000#16 ∨ (t ≠ 0xFFFF#16 ∧ t = tag)) →
      exec i s = .next (act s.accepted)) := by
  have hadd : ¬(target ≠ s.cfl.address.setWidth 8 ∧ target ≠ 255#8) ↔ s.accepted.addressed target = true := by
    rw [accepted_addressed, addressed_iff]
    tauto
  have htag : s.accepted.srh.lineTag = some t := by simpa using hk
  rw [he, receive_running hh hr hs, hadd]
  refine ⟨fun h => ?_, fun ⟨h, href⟩ => ?_, fun ⟨h, hacc⟩ => ?_⟩
  · rw [takeRequest_of_other (Bool.eq_false_iff.2 fun e => hadd.2 e h)]
  · rw [takeRequest_of_refused h]
    rw [htag, ← Bool.not_eq_true, tagAccepted_iff]
    rintro (rfl | ⟨h1, h2⟩)
    · simp at href
    · exact href.elim h1 fun hn => hn.2 h2
  · rw [takeRequest_of_accepted h (by rw [htag, tagAccepted_iff]; exact hacc)]

/-- Settles O49: each class of request by its dispatch in RUNNING. -/
theorem tagCheckGuardsRequests : Obligations.TagCheckGuardsRequests := by
  intro s source target tag t hr hs hk ignored refused taken refusal answers
  refine ⟨answers_of_request hr hs hk rfl, answers_of_request hr hs hk rfl, fun a hh => ?_,
    fun o => answers_of_request (act := refuseRequest) hr hs hk rfl,
    fun e d => answers_of_request (act := fun v => v.retimeEntry e d) hr hs hk rfl⟩
  have he : exec (.restart source target tag a) s = .next (s.receiveFrame (.restart source target tag a)
      (acceptFrame source (whenRunning fun u => u.takeRequest target tag fun v => v.restartStation a))) := by
    change Host.Outcome.next _ = _
    rw [receive_running hh hr hs, receive_other hh hs, takeRestart, accepted_cfl, run_of_running hr]
  exact answers_of_request hr hs hk he hh

/-! ### HALTED (R173) -/

theorem takeRestart_of_halted (h : s.cfl.run = .halted) (start : StartReads) : s.takeRestart target tag start =
    if s.addressed target then s.restartStation start else s := by rw [takeRestart, h]

theorem takeRestart_of_running (h : s.cfl.run = .running) (start : StartReads) : s.takeRestart target tag start =
    s.takeRequest target tag fun u => u.restartStation start := by rw [takeRestart, h]

/-- Settles O53: a HALTED station dispatches neither, and an unknown operation that passes is refused. -/
theorem haltedIgnoresAndUnknownRefused : Obligations.HaltedIgnoresAndUnknownRefused := by
  intro s source target tag hs
  refine ⟨fun hrun => ?_, fun hr ht hk o hh => ?_⟩
  · have hr := not_running_of_halted hrun
    have quiet : ∀ (i : Instr) (work : State → State), s.Heeds i →
        exec i s = .next (s.receiveFrame i (acceptFrame source (whenRunning work))) → exec i s = .next s.accepted :=
      fun i work hh he => by rw [he, receive_not_running hh hr hs]
    refine ⟨fun c p q hh => quiet _ _ hh rfl, fun c n k p hh => quiet _ _ hh rfl, fun hh => quiet _ _ hh rfl,
      fun hh => quiet _ _ hh rfl, fun o hh => quiet _ _ hh rfl, fun e d hh => quiet _ _ hh rfl,
      fun c hh => congrArg _ (receive_other hh hs _), fun ht start hh => ?_⟩
    change Host.Outcome.next _ = _
    rw [receive_other hh hs, takeRestart_of_halted (by simpa using hrun), if_neg (by simp [ht])]
  · change Host.Outcome.next _ = _
    rw [receive_running hh hr hs, takeRequest_of_accepted (by simpa using ht) (by simpa using hk)]
    rfl

/-! ### RESTART and PURGE (R175, R176) -/

/-- Settles O52: in either run state the accepted RESTART is the same new start. -/
theorem restartBeginsANewStart : Obligations.RestartBeginsANewStart := by
  intro s source target tag start hh hs ht hrun
  have htake : s.accepted.takeRestart target tag start = s.accepted.restartStation start := by
    obtain ⟨hr, hk⟩ | hr := hrun
    · rw [takeRestart_of_running (by simpa using hr), takeRequest_of_accepted (by simpa using ht) (by simpa using hk)]
    · rw [takeRestart_of_halted (by simpa using hr), if_pos (by simpa using ht)]
  refine ⟨s.accepted.restartStation start, ?_, rfl, ?_, rfl, rfl, rfl, rfl, ?_, rfl, rfl, rfl, rfl, rfl, rfl, rfl, rfl,
    rfl, accepted_pending s⟩
  · change Host.Outcome.next _ = _
    rw [receive_other hh hs, htake]
  · have : s.accepted.fru.events = s.fru.events := by rw [accepted_fru]; rfl
    change s.accepted.fru.events.raise .restarted = _
    rw [this]
    rfl
  · change { Lpi.reset with decoder := s.accepted.lpi.decoder } = _
    have : s.accepted.lpi.decoder = .outside 0 := by
      rw [accepted, noteAcceptance]
      split_ifs <;> simp [endMute]
    rw [this]

theorem cancelAll_time (s : State) : s.cancelAll.asc.time = [] := by
  change (cancelList _ s.asc.time _ _).schedule = []
  rw [cancelList_schedule]
  simp

theorem cancelAll_travel (s : State) : s.cancelAll.asc.travel = [] := by
  change (cancelList _ s.asc.travel _ _).schedule = []
  rw [cancelList_schedule]
  simp

/-- R81: the free stack behind a cancellation, the time schedule's slots first. -/
theorem cancelWhere_free (s : State) (w : HeldSet → Bool) : (s.cancelWhere w).asc.free =
    ((s.asc.travel.filter fun a => w a.held).map Action.slot).reverse ++
      (((s.asc.time.filter fun a => w a.held).map Action.slot).reverse ++ s.asc.free) := by
  change (cancelList _ s.asc.travel (cancelList _ s.asc.time _ _).free _).free = _
  rw [cancelList_free, cancelList_free]

theorem cancelAll_free (s : State) : s.cancelAll.asc.free =
    (s.asc.travel.map Action.slot).reverse ++ ((s.asc.time.map Action.slot).reverse ++ s.asc.free) := by
  have h := cancelWhere_free s fun _ => true
  simp only [List.filter_true] at h
  exact h

theorem cancelAll_claim (h : s.ClaimsSound) (n : LineId) : (s.cancelAll.drive n).claim = 0 := by
  obtain ⟨-, -, -, hm⟩ := cancelWhere_claims s (fun _ => true) h
  have hn := hm n
  rw [show s.cancelWhere _ = s.cancelAll from rfl, cancelAll_time, cancelAll_travel] at hn
  simpa using hn

theorem free_of_slotsPartitioned (h : s.SlotsPartitioned) (h1 : s.asc.time = []) (h2 : s.asc.travel = []) :
    s.asc.free.length = 48 := by
  have := h.length_eq
  simpa [h1, h2] using this

theorem actionsSound_accepted (h : s.ActionsSound) : s.accepted.ActionsSound :=
  (((closed_move s).moves.then (count_move _ _)).then (noteAcceptance_move _)).keeps
    (P := ActionsSound) (fun _ _ _ m => move_actionsSound m) h

theorem claimsSound_accepted (h : s.ClaimsSound) : s.accepted.ClaimsSound :=
  claims_of_eq (accepted_sbs s) (accepted_asc s) (accepted_dcu s) h

/-- Settles O51: the accepted PURGE is the cancellation of every action. -/
theorem purgeEmptiesTheSchedules : Obligations.PurgeEmptiesTheSchedules := by
  intro s source target tag hh hr hs ht hk
  refine ⟨s.accepted.cancelAll, ?_, cancelAll_time _, cancelAll_travel _, ?_, fun hp => ?_, ?_, fun hc n => ?_,
    fun ha n => ?_, by simp⟩
  · change Host.Outcome.next _ = _
    rw [receive_running hh hr hs, takeRequest_of_accepted (by simpa using ht) (by simpa using hk)]
  · rw [cancelAll_free, accepted_asc]
  · exact free_of_slotsPartitioned (cancelWhere_slots _ _ (slots_of_asc (accepted_asc s) hp)) (cancelAll_time _)
      (cancelAll_travel _)
  · exact (rfl : _ = s.accepted.asc.limits).trans (congrArg Asc.limits (accepted_asc s))
  · have hz := cancelAll_claim (claimsSound_accepted hc) n
    exact ⟨hz, by rw [DriveLine.demand, hz]; rfl⟩
  · obtain ⟨hc, hst, -⟩ := actionsSound_accepted ha
    exact cancelWhere_stopped hst _ n (cancelAll_claim hc n)

/-! ### Rejected and accepted frames (R147, R153) -/

theorem closed_lpi_inside (h : ∃ bit heeded, s.lpi.decoder = .inside bit heeded) :
    s.closed.lpi = { s.lpi with decoder := .outside 0 } := by
  obtain ⟨bit, heeded, hd⟩ := h
  rw [closed, hd]
  rfl

/-- R153: a frame that a MUTED station takes whole shows its start bit. -/
theorem closed_lpi_whole (hh : s.Heeds i) (hm : s.lpi.state = .muted)
    (h : ∀ bit heeded, s.lpi.decoder ≠ .inside bit heeded) :
    s.closed.lpi = { s.lpi with decoder := .outside 0, frameStart := true } := by
  obtain ⟨-, -, ⟨bit, hd, -⟩ | ⟨run, hd⟩ | ⟨left, hd⟩⟩ := hh
  · exact absurd hd (h bit true)
  · rw [closed, hd]
    simp [meetFrame, closeFrame, setDecoder, muted_iff.2 hm]
  · rw [closed, hd]
    simp [meetFrame, closeFrame, setDecoder, muted_iff.2 hm]

theorem accepted_lpi_not_muted (h : s.lpi.state ≠ .muted) : s.accepted.lpi = s.closed.lpi := by
  have hm : (s.closed.count .acceptedFrames).muted = false := by
    rw [← Bool.not_eq_true, muted_iff]
    simpa using h
  rw [accepted, noteAcceptance, if_neg (by simp [hm])]
  rfl

theorem accepted_lpi_counting (hm : s.lpi.state = .muted) (h : s.lpi.acceptedRun + 1 < 32) :
    s.accepted.lpi = { s.closed.lpi with acceptedRun := s.lpi.acceptedRun + 1 } := by
  have hmuted : (s.closed.count .acceptedFrames).muted = true := muted_iff.2 (by simpa using hm)
  rw [accepted, noteAcceptance, if_pos hmuted, if_neg]
  · simp
  · simpa [Config.muteAcceptances] using Nat.lt_of_succ_lt_succ h

theorem accepted_lpi_ending (hm : s.lpi.state = .muted) (h : 32 ≤ s.lpi.acceptedRun + 1) :
    s.accepted.lpi = { s.closed.lpi with
      state := .active, faultCount := 0, acceptedRun := 0, quietCycles := 0, frameStart := false } := by
  have hmuted : (s.closed.count .acceptedFrames).muted = true := muted_iff.2 (by simpa using hm)
  rw [accepted, noteAcceptance, if_pos hmuted, if_pos]
  · rfl
  · simpa [Config.muteAcceptances] using h

theorem accepted_decoder (s : State) : s.accepted.lpi.decoder = .outside 0 := by
  rw [accepted, noteAcceptance]
  split_ifs <;> simp [endMute]

theorem rejectFrame_lpi (f : WireFrame) (s : State) : (rejectFrame f s).lpi = { s.lpi with acceptedRun := 0 } := by
  unfold rejectFrame
  split <;> rfl

/-- Settles O44: the close, and then the rejection or the acceptance. -/
theorem framesCloseRejectedOrAccepted : Obligations.FramesCloseRejectedOrAccepted := by
  refine ⟨fun s f hh => ⟨rejectFrame f s.closed, congrArg _ (receiveFrame_heeds s hh _), ?_, fun h => ?_, fun hm hd => ?_, ?_⟩,
    fun s i hh => ⟨?_, accepted_decoder s, fun hm => ?_, fun hm hrun => ⟨fun hd => ?_, fun hd => ?_⟩, fun hm hrun => ?_,
      by simp⟩⟩
  · unfold rejectFrame
    split <;> simp [noteRejection, count, countBy]
  · rw [rejectFrame_lpi]
    obtain hm | hd := h
    · rw [closed_lpi _ hm]
    · rw [closed_lpi_inside hd]
  · rw [rejectFrame_lpi, closed_lpi_whole hh hm hd]
  · unfold rejectFrame
    split <;> simp
  · rw [accepted_fru]
    rfl
  · rw [accepted_lpi_not_muted hm, closed_lpi _ hm]
  · rw [accepted_lpi_counting hm hrun, closed_lpi_inside hd]
  · rw [accepted_lpi_counting hm hrun, closed_lpi_whole hh hm hd]
  · rw [accepted_lpi_ending hm hrun]
    by_cases hd : ∃ bit heeded, s.lpi.decoder = .inside bit heeded
    · rw [closed_lpi_inside hd]
    · rw [closed_lpi_whole hh hm fun bit heeded e => hd ⟨bit, heeded, e⟩]

end Sys2Proof.Machine.State
end

section
/-! Marks and requests on their way (R31 to R36, R52 to R60), queries (R165, R166), and the frames that reach no
block. -/

namespace Sys2Proof.Machine

/-- R190, R191: the mark channel is the low three bits of its byte. -/
theorem markChannel_val (octet : Byte) : (markChannel octet).val = octet.toNat % 8 := by
  simp [markChannel, index8, BitVec.extractLsb'_toNat]

namespace State

variable {s t : State} {source : Address} {octet seq : Byte} {cycleLow phase : Half} {i : Fin 64}

/-! ### Marks (R52) -/

theorem exec_mark_of_heeds (hh : s.Heeds (.mark source octet seq cycleLow phase)) (hr : s.running = true)
    (hs : source ≠ s.cfl.address) : exec (.mark source octet seq cycleLow phase) s =
      .next (s.accepted.receiveMark source (markChannel octet) seq cycleLow phase) :=
  congrArg _ (receive_running hh hr hs _)

theorem names_accepted {channel : Nat} : s.accepted.Names source channel i ↔ s.Names source channel i := by
  simp [Names]

theorem exec_mark_of_locked (hh : s.Heeds (.mark source octet seq cycleLow phase)) (hr : s.running = true)
    (hl : s.ltu.sync = .locked) (hs : source ≠ s.cfl.address) (hp : phase.toNat < s.period) :
    exec (.mark source octet seq cycleLow phase) s = .next (s.accepted.processMark source (markChannel octet) seq
      { cycle := rebuildCycle s.now.cycle cycleLow, phase := phase.toNat }
      fun u => u.positionAt { cycle := rebuildCycle s.now.cycle cycleLow, phase := phase.toNat }) := by
  rw [exec_mark_of_heeds hh hr hs, receiveMark_of_locked (by simp [locked_iff, hr, hl]) (by simpa using hp), accepted_now]

/-- R55: of an entry the sequence test writes the last-seen sequence alone. -/
theorem entry_of_sequenceTest (h : s.sequenceTest i seq = some t) :
    t.entry i = { s.entry i with lastSeen := some seq } := by
  obtain rfl | ⟨gap, rfl⟩ := sequenceTest_cases h <;> exact entry_sawSequence_self

theorem positionAt_of_blocks (h1 : t.ltu = s.ltu) (h2 : t.tvu = s.tvu) (c : Instant) : t.positionAt c = s.positionAt c := by
  unfold positionAt now period
  rw [h1, h2]

theorem qualifierMet_of_llu (h : t.llu = s.llu) (q : Option Qualifier) : t.qualifierMet q = s.qualifierMet q := by
  simp only [qualifierMet, line, h]

/-- R52: a mark that names an entry and passes the sequence test is tested against its qualifier, then requests. -/
theorem processMark_of_passed {channel : Fin 8} {capture : Instant} {position : State → Option Word}
    (hn : s.Names source channel.val i) (h1 : s.sequenceTest i seq = some t) :
    s.processMark source channel seq capture position =
      if t.qualifierMet (t.entry i).qualifier then t.requestFor i capture (position t) else t := by
  have hl : s.lookup source channel = some i := (s.lookup_iff source channel i).mpr hn
  simp only [processMark, hl, h1]

theorem requestFor_time {capture : Instant} {position : Option Word} (h : (t.entry i).domain = .time) :
    t.requestFor i capture position =
      t.admitTime (Instant.add t.period capture (t.entry i).delay.toNat) (t.entry i).template := by
  simp only [requestFor, h]

theorem requestFor_tooOld {capture : Instant} (h : (t.entry i).domain = .travel) :
    t.requestFor i capture none = t.setFlag .markTooOld := by
  simp only [requestFor, h]

theorem requestFor_travel {capture : Instant} {p : Word} (h : (t.entry i).domain = .travel) :
    t.requestFor i capture (some p) = t.admitTravel (p + (t.entry i).delay.setWidth 32) (t.entry i).template := by
  simp only [requestFor, h]

theorem period_of_ltu (h : t.ltu = s.ltu) : t.period = s.period := by simp [period, h]

theorem qualifierHolds_of_llu (h : t.llu = s.llu) (q : Option Qualifier) : t.QualifierHolds q ↔ s.QualifierHolds q := by
  rw [← qualifierMet_iff, ← qualifierMet_iff, qualifierMet_of_llu h]

/-- Settles O20: the steps of a mark that names an entry. -/
theorem markTakesTheSteps : Obligations.MarkTakesTheSteps := by
  intro s source octet seq cycleLow phase i hh hr hl hs hp hn capture e answer
  have hans : answer = _ := exec_mark_of_locked hh hr hl hs hp
  have hn' : s.accepted.Names source (markChannel octet).val i := by rwa [names_accepted, markChannel_val]
  refine ⟨fun h0 => ?_, fun s1 h1 => ?_⟩
  · rw [hans, processMark_of_duplicate hn' h0]
  have hltu : s1.ltu = s.ltu := (sequenceTest_ltu _ _ _ _ h1).trans (accepted_ltu s)
  have htvu : s1.tvu = s.tvu := (sequenceTest_tvu _ _ _ _ h1).trans (accepted_tvu s)
  have hllu : s1.llu = s.llu := (sequenceTest_llu _ _ _ _ h1).trans (accepted_llu s)
  have hentry : s1.entry i = { e with lastSeen := some seq } := by rw [entry_of_sequenceTest h1, accepted_entry]
  have hq : s1.qualifierMet (s1.entry i).qualifier = true ↔ s.QualifierHolds e.qualifier := by
    rw [qualifierMet_iff, qualifierHolds_of_llu hllu, hentry]
  have hperiod : s1.period = s.period := period_of_ltu hltu
  rw [processMark_of_passed hn' h1] at hans
  refine ⟨fun h => ?_, fun h hd => ?_, fun h hd hpos => ?_, fun p h hd hpos => ?_⟩
  · rw [hans, if_neg fun hm => h (hq.1 hm)]
  · rw [hans, if_pos (hq.2 h), requestFor_time (by rw [hentry]; exact hd), hperiod, hentry]
  · rw [hans, if_pos (hq.2 h), positionAt_of_blocks hltu htvu, hpos, requestFor_tooOld (by rw [hentry]; exact hd)]
  · rw [hans, if_pos (hq.2 h), positionAt_of_blocks hltu htvu, hpos, requestFor_travel (by rw [hentry]; exact hd), hentry]

/-- Settles O22: the first mark of an entry, on time and with a slot free. -/
theorem markBecomesTimeAction : Obligations.MarkBecomesTimeAction := by
  intro s source octet seq cycleLow phase i slot free hh hr hl hs hp hn hseen hd hq hfree capture due hlate
  have h1 : s.accepted.sequenceTest i seq = some (s.accepted.sawSequence i seq) :=
    sequenceTest_of_absent (by rw [accepted_entry]; exact hseen)
  have hans := ((markTakesTheSteps s source octet seq cycleLow phase i hh hr hl hs hp hn).2 _ h1).2.1 hq hd
  have hperiod : (s.accepted.sawSequence i seq).period = s.period := accepted_period s
  have hnow : (s.accepted.sawSequence i seq).now = s.now := accepted_now s
  have hasc : (s.accepted.sawSequence i seq).asc = s.asc := accepted_asc s
  rw [admitTime_filed (slot := slot) (free := free) (s.entry i).template (by rw [hasc, hfree])
    (by rw [hperiod, hnow]; exact hlate.trans (Int.natCast_nonneg _)), hperiod, hnow,
    if_neg (by exact not_lt.2 hlate)] at hans
  refine ⟨_, hans, ?_, ?_, fun j hj => ?_, ?_, ?_, rfl, rfl, ?_⟩
  · simp [filedTime, timeDomain, hperiod, hnow, due, capture]
  · exact entry_sawSequence_self.trans (by rw [accepted_entry])
  · exact (entry_sawSequence_ne hj).trans (accepted_entry s j)
  · exact (congrArg Sbs.sourceMap (accepted_sbs s) :)
  · exact (congrArg Sbs.templates (accepted_sbs s) :)
  · exact ⟨accepted_ltu s, accepted_dcu s, accepted_tvu s, accepted_llu s, accepted_mku s, accepted_srh s, accepted_cfl s⟩

/-! ### RETIME (R35, R177) -/

theorem retimeEntry_valid {number : Byte} (h : number.toNat < 64) (hv : (s.entry ⟨number.toNat, h⟩).valid = true)
    (delay : BitVec 24) : s.retimeEntry number delay =
      s.mapEntry ⟨number.toNat, h⟩ fun e => { e with shadow := some delay } := by
  simp [retimeEntry, takeRetime, h, hv]

theorem retimeEntry_refused {number : Byte}
    (hv : ∀ h : number.toNat < 64, (s.entry ⟨number.toNat, h⟩).valid = false) (delay : BitVec 24) :
    s.retimeEntry number delay = s.refuseRequest := by
  unfold retimeEntry takeRetime
  by_cases h : number.toNat < 64
  · simp [h, hv h]
  · simp [h]

/-- Settles O24: the accepted RETIME, for a valid entry and for every other number. -/
theorem retimeSetsTheShadow : Obligations.RetimeSetsTheShadow := by
  intro s source target tag entry delay hh hr hs ht hk
  have hans : exec (.retime source target tag entry delay) s = .next (s.accepted.retimeEntry entry delay) := by
    change Host.Outcome.next _ = _
    rw [receive_running hh hr hs, takeRequest_of_accepted (by simpa using ht) (by simpa using hk)]
  refine ⟨fun h hv => ?_, fun hv => ?_⟩
  · rw [retimeEntry_valid h (by rw [accepted_entry]; exact hv)] at hans
    refine ⟨_, hans, ?_, fun j hj => ?_, (congrArg Sbs.sourceMap (accepted_sbs s) :),
      (congrArg Sbs.templates (accepted_sbs s) :), rfl, rfl, accepted_ltu s, accepted_asc s, accepted_dcu s, accepted_tvu s, accepted_llu s, accepted_mku s,
      accepted_srh s, accepted_cfl s⟩
    · rw [entry_mapEntry_self, accepted_entry]
    · rw [entry_mapEntry_ne _ _ hj, accepted_entry]
  · rw [hans, retimeEntry_refused fun h => by rw [accepted_entry]; exact hv h]

/-! ### Queries (R165, R166) -/

theorem takeQuery_of_handled {target page : Byte} (h : page.toNat < 8) (ht : s.addressed target = true) :
    s.takeQuery target page = s.takePage ⟨page.toNat, h⟩ := by
  rw [takeQuery, dif_pos h, if_pos ht]

theorem takeQuery_of_ignored {target page : Byte} (h : 8 ≤ page.toNat ∨ s.addressed target = false) :
    s.takeQuery target page = s := by
  unfold takeQuery
  split
  · rw [if_neg]
    obtain h | h := h
    · omega
    · simp [h]
  · rfl

theorem takePage_of_empty (h : s.fru.reportSlot = .empty) (p : Fin 8) :
    s.takePage p = { s with fru := { s.fru with reportSlot := .waiting p } } := by simp only [takePage, h]

theorem takePage_of_waiting {q : Fin 8} (h : s.fru.reportSlot = .waiting q) (p : Fin 8) :
    s.takePage p = { s with fru := { s.fru with reportSlot := .waiting p } } := by simp only [takePage, h]

theorem takePage_of_sending {q : Fin 8} (h : s.fru.reportSlot = .sending q) (p : Fin 8) :
    s.takePage p = { s with fru := { s.fru with heldPage := some p } } := by simp only [takePage, h]

theorem exec_query_of_heeds {target page : Byte} (hh : s.Heeds (.query source target page))
    (hs : source ≠ s.cfl.address) :
    exec (.query source target page) s = .next (s.accepted.takeQuery target page) := by
  change Host.Outcome.next _ = _
  rw [if_neg (by simp [hh.reportOnWire]), receive_other hh hs]

/-- R166: a query that comes while the own report is on the wire. -/
theorem exec_query_of_reportOnWire {target page : Byte} (h : s.reportOnWire = true) (hs : source ≠ s.cfl.address) :
    exec (.query source target page) s =
      .next (((s.count .acceptedFrames).noteAcceptance).takeQuery target page) := by
  change Host.Outcome.next _ = _
  rw [if_pos h, acceptFrame, if_neg (by simpa using hs)]

/-- Settles O54: a query that is heeded, and one beside the own report. -/
theorem queryFillsTheReportSlot : Obligations.QueryFillsTheReportSlot := by
  intro s source target page hs
  have hslot : s.accepted.fru.reportSlot = s.fru.reportSlot := by rw [accepted_fru]; rfl
  refine ⟨fun hh h ht => ⟨fun he => ?_, fun q hq => ?_⟩, fun x hx hc => ?_, fun hh hi => ?_⟩
  · rw [exec_query_of_heeds hh hs, takeQuery_of_handled h (by simpa using ht), takePage_of_empty (hslot.trans he)]
  · rw [exec_query_of_heeds hh hs, takeQuery_of_handled h (by simpa using ht), takePage_of_waiting (hslot.trans hq)]
  · intro taken
    refine ⟨fun hm => ?_, fun q hq h ht => ?_, fun hi => ?_⟩
    · have hmuted : (s.count .acceptedFrames).muted = false := by
        rw [← Bool.not_eq_true, muted_iff]
        exact hm
      change (s.count .acceptedFrames).noteAcceptance = _
      rw [noteAcceptance, if_neg (by simp [hmuted])]
      rfl
    · have ht' : taken.addressed target = true := by simpa [taken, addressed] using ht
      have hq' : taken.fru.reportSlot = .sending q :=
        (congrArg Fru.reportSlot (noteAcceptance_fru (s.count .acceptedFrames))).trans hq
      rw [exec_query_of_reportOnWire (by simp [reportOnWire, hx, hc]) hs]
      exact congrArg _ ((takeQuery_of_handled h ht').trans (takePage_of_sending hq' _))
    · have hi' : 8 ≤ page.toNat ∨ taken.addressed target = false := by simpa [taken, addressed] using hi
      rw [exec_query_of_reportOnWire (by simp [reportOnWire, hx, hc]) hs]
      exact congrArg _ (takeQuery_of_ignored hi')
  · rw [exec_query_of_heeds hh hs, takeQuery_of_ignored (by simpa using hi)]

/-! ### Frames that reach no block (R148, R149) -/

theorem exec_query_of_own {target page : Byte} (hh : s.Heeds (.query source target page)) (hs : source = s.cfl.address) :
    exec (.query source target page) s = .next (s.accepted.setFlag .addressClash) := by
  change Host.Outcome.next _ = _
  rw [if_neg (by simp [hh.reportOnWire]), receive_own hh hs]

theorem receiveMark_of_unlocked {channel : Fin 8} (h : s.locked = false ∨ s.period ≤ phase.toNat) :
    s.receiveMark source channel seq cycleLow phase = s := by
  refine if_neg fun ⟨hl, hp⟩ => ?_
  obtain h | h := h
  · simp [h] at hl
  · omega

theorem receiveMark_of_unnamed {channel : Fin 8} (h : ∀ i, ¬s.Names source channel.val i) :
    s.receiveMark source channel seq cycleLow phase = s := by
  obtain e | ⟨-, -, e⟩ := s.receiveMark_cases source channel seq cycleLow phase
  · exact e
  · rw [e, processMark, (s.lookup_none_iff source channel).2 h]

/-- R53, R54: a mark that comes outside LOCKED, out of the cycle, or for no entry. -/
theorem exec_mark_of_nothing (hh : s.Heeds (.mark source octet seq cycleLow phase)) (hs : source ≠ s.cfl.address)
    (h : s.running = false ∨ s.ltu.sync = .listen ∨ s.period ≤ phase.toNat ∨ ∀ i, ¬s.Names source (octet.toNat % 8) i) :
    exec (.mark source octet seq cycleLow phase) s = .next s.accepted := by
  cases hr : s.running with
  | false => exact congrArg _ (receive_not_running hh hr hs _)
  | true =>
    rw [exec_mark_of_heeds hh hr hs]
    obtain h | h | h | h := h
    · simp [h] at hr
    · rw [receiveMark_of_unlocked (.inl (by simp [locked, h]))]
    · rw [receiveMark_of_unlocked (.inr (by simpa using h))]
    · rw [receiveMark_of_unnamed fun i => by rw [names_accepted, markChannel_val]; exact h i]

/-- R137: a frame command that comes before a frame of its length can close. -/
theorem exec_early {i : Instr} {f : WireFrame} {bit : Nat} {heeded : Bool} (hi : i.wireFrame = some f)
    (hd : s.lpi.decoder = .inside bit heeded) (hb : bit < f.ticks)
    (hq : s.reportOnWire = false ∨ ∀ a g p, i ≠ .query a g p) : exec i s = .next s := by
  have early : ∀ work, s.receiveFrame i work = s := receiveFrame_early hi hd hb
  cases i with
  | query a g p =>
    have hw : s.reportOnWire = false := hq.resolve_right fun h => h a g p rfl
    change Host.Outcome.next _ = _
    rw [if_neg (by simp [hw]), early]
  | frameRejected => exact congrArg _ (early _)
  | beacon => exact congrArg _ (early _)
  | mark => exact congrArg _ (early _)
  | clearFaults => exact congrArg _ (early _)
  | purge => exact congrArg _ (early _)
  | restart => exact congrArg _ (early _)
  | unknownOperation => exact congrArg _ (early _)
  | retime => exact congrArg _ (early _)
  | report => exact congrArg _ (early _)
  | _ => cases hi

/-- Settles O46: own frames, frames without a taker, and frames before their close. -/
theorem framesThatReachNoBlock : Obligations.FramesThatReachNoBlock := by
  intro s source
  refine ⟨fun hs => ?_, fun hs => ⟨fun c hh => congrArg _ (receive_other hh hs _), fun _ _ _ _ hh h =>
    exec_mark_of_nothing hh hs h⟩, fun i f bit h hi hd hb hq => exec_early hi hd hb hq⟩
  exact ⟨fun _ _ _ hh => congrArg _ (receive_own hh hs _), fun _ _ _ _ hh => congrArg _ (receive_own hh hs _),
    fun _ _ hh => congrArg _ (receive_own hh hs _), fun _ _ hh => congrArg _ (receive_own hh hs _),
    fun _ _ _ hh => congrArg _ (receive_own hh hs _), fun _ _ _ hh => congrArg _ (receive_own hh hs _),
    fun _ _ _ _ hh => congrArg _ (receive_own hh hs _), fun _ _ hh => exec_query_of_own hh hs,
    fun _ hh => congrArg _ (receive_own hh hs _)⟩

end State
end Sys2Proof.Machine
end

section
/-! Edges of the local lines (R105 to R107, R115, R120 to R128): records made, reverted and accepted. -/

namespace Sys2Proof.Machine

theorem Table.modify_modify {α : Type} {k : Nat} (t : Table α k) (i : Fin k) (f g : α → α) :
    (t.modify i f).modify i g = t.modify i (g ∘ f) := by
  unfold Table.modify
  rw [Table.get_set_self]
  unfold Table.set
  simp

namespace State

variable {s t : State} {n m : LineId} {r : FilterRecord}

theorem mapLine_mapLine (s : State) (n : LineId) (f g : LocalLine → LocalLine) :
    (s.mapLine n f).mapLine n g = s.mapLine n (g ∘ f) := by
  unfold mapLine
  dsimp only
  rw [Table.modify_modify]

theorem line_of_llu (h : t.llu = s.llu) (n : LineId) : t.line n = s.line n := by rw [line, line, h]

/-! ### The commands -/

theorem execEdgeAccept_now (hr : s.running = true) (hrec : (s.line n).record = some r) (h1 : r.remaining ≤ 1)
    (hs : (s.line n).sampled = false) : exec (.edgeAccept n) s = .next ((s.markSampled n).acceptEdge n r) := by
  change Host.Outcome.next _ = _
  rw [hrec]
  dsimp only
  rw [if_pos ⟨hr, h1, hs⟩]

theorem execFirstSight_now (hr : s.running = true) (hf : (s.functionOf n).sampled = true)
    (hrec : (s.line n).record = none) (hs : (s.line n).sampled = false) :
    exec (.firstSight n) s = .next (s.sightLine n) := by
  change Host.Outcome.next _ = _
  rw [if_pos ⟨hr, hf, hrec, hs⟩]

theorem execFilterReversion_now (hr : s.running = true) (hrec : (s.line n).record ≠ none)
    (hs : (s.line n).sampled = false) :
    exec (.filterReversion n) s = .next ((s.markSampled n).mapLine n fun l => { l with record := none }) := by
  change Host.Outcome.next _ = _
  rw [if_pos ⟨hr, hrec, hs⟩]

/-! ### The acceptance (R122) -/

/-- R122: line `n` with its sample of this tick taken and the edge of a record accepted. -/
def edgeTaken (s : State) (n : LineId) (r : FilterRecord) : State := (s.markSampled n).mapLine n fun l => l.accept r.pending

theorem edgeTaken_line_self (s : State) (n : LineId) (r : FilterRecord) : (s.edgeTaken n r).line n =
    { s.line n with filtered := r.pending, record := none, sampled := true } := by
  rw [edgeTaken, line_mapLine_self, markSampled, line_mapLine_self]
  rfl

theorem edgeTaken_line_ne (h : m ≠ n) : (s.edgeTaken n r).line m = s.line m := by
  rw [edgeTaken, line_mapLine_ne _ _ h, markSampled, line_mapLine_ne _ _ h]

theorem settings_markSampled (s : State) (n m : LineId) : ((s.markSampled n).line m).settings = (s.line m).settings := by
  rw [line_markSampled]
  split
  · subst_vars; rfl
  · rfl

theorem acceptEdge_of_enc (h : s.functionOf n = .enc) :
    (s.markSampled n).acceptEdge n r = (s.edgeTaken n r).encoderEdge n r.pending := by
  simp only [acceptEdge, functionOf_markSampled, h]
  rfl

theorem acceptEdge_of_zero (h : s.functionOf n = .zero) : (s.markSampled n).acceptEdge n r =
    if (s.line n).settings.edges.selects r.pending then (s.edgeTaken n r).zeroRebase else s.edgeTaken n r := by
  simp only [acceptEdge, functionOf_markSampled, h, settings_markSampled]
  rfl

theorem acceptEdge_of_sense (h : s.functionOf n = .sense) :
    (s.markSampled n).acceptEdge n r = (s.edgeTaken n r).senseEdge n r.pending r.stamp := by
  simp only [acceptEdge, functionOf_markSampled, h]
  rfl

/-- R122: an acceptance looks at the line behind the change of its level and at its settings. -/
theorem acceptEdge_congr {u : State} (h1 : (s.mapLine n fun l => l.accept r.pending) = u.mapLine n fun l => l.accept r.pending)
    (h2 : (s.line n).settings = (u.line n).settings) : s.acceptEdge n r = u.acceptEdge n r := by
  unfold acceptEdge functionOf
  rw [h1, h2]

/-- R122: of its own line an acceptance changes the level, the record and at most the dead time. -/
theorem acceptEdge_line_self (s : State) (n : LineId) (r : FilterRecord) :
    (s.acceptEdge n r).line n = (s.line n).accept r.pending ∨
      (s.acceptEdge n r).line n = ((s.line n).accept r.pending).startDeadTime := by
  have hself : (s.mapLine n fun l => l.accept r.pending).line n = (s.line n).accept r.pending := line_mapLine_self s n _
  obtain e | e | ⟨d, -, e⟩ | ⟨i, p, -, e⟩ := s.acceptEdge_cases n r <;> rw [e]
  · exact .inl hself
  · left
    have hz := line_mapLines (s.mapLine n fun l => l.accept r.pending) n (LocalLine.rebaseRecord s.tvu.position)
    rw [hself] at hz
    exact hz
  · left
    rw [line_of_llu (countChange_llu _ d), hself]
  · right
    rw [line_of_llu (takeCapture_llu _ _ _ _), line_mapLine_self, hself]

/-! ### Encoder edges (R106, R107) -/

theorem countChange_kept (s : State) (d : CountChange) : (s.countChange d).tvu.mode = s.tvu.mode ∧
    (s.countChange d).asc.time = s.asc.time ∧ (s.countChange d).asc.limits = s.asc.limits := by
  cases d
  · exact ⟨rfl, rfl, rfl⟩
  · refine ⟨?_, ?_, ?_⟩
    · simp [countChange]
    · exact tailTest_time _
    · change (tailTest _).asc.limits = _
      unfold tailTest
      split
      · rfl
      · split <;> rfl

theorem countTaken_congr {u : State} {d : CountChange} (h : u.CountTaken t d) (ha : u.asc = s.asc) (hd : u.dcu = s.dcu)
    (hb : u.sbs = s.sbs) (hv : u.tvu = s.tvu) : s.CountTaken t d := by
  unfold CountTaken TravelPassTaken travelPool at *
  rwa [ha, hd, hb, hv] at h

theorem edgeTaken_countTaken (s : State) (n : LineId) (r : FilterRecord) (d : CountChange) :
    s.CountTaken ((s.edgeTaken n r).countChange d) d :=
  countTaken_congr (countChange_taken (s.edgeTaken n r) d) rfl rfl rfl rfl

theorem countChange_noHeadDue (s : State) (d : CountChange) : (s.countChange d).NoTravelHeadDue := by
  cases d <;> exact travelPass_noHeadDue _

theorem quadDirection_A (a b : Level) : quadDirection true (a == .active) (b == .active) =
    if a = b then .backward else .forward := by
  cases a <;> cases b <;> rfl

theorem quadDirection_B (a b : Level) : quadDirection false (a == .active) (b == .active) =
    if a = b then .forward else .backward := by
  cases a <;> cases b <;> rfl

theorem encoderEdge_cases (s : State) (n : LineId) (level : Level) :
    s.encoderEdge n level = s ∨ ∃ d, s.encoderEdge n level = s.countChange d := by
  unfold encoderEdge
  split
  · exact .inl rfl
  · split
    · exact .inr ⟨_, rfl⟩
    · exact .inl rfl
  · split
    · exact .inr ⟨_, rfl⟩
    · split
      · exact .inr ⟨_, rfl⟩
      · exact .inl rfl

theorem encoderEdge_pulse (hm : s.tvu.mode = .pulse) :
    s.encoderEdge 6 .active = s.countChange .forward := by simp only [encoderEdge, hm]; rfl

theorem encoderEdge_quad_A (hm : s.tvu.mode = .quad) (level : Level) : s.encoderEdge 6 level =
    s.countChange (if level = (s.line 7).filtered then .backward else .forward) := by
  simp only [encoderEdge, hm, if_true, quadDirection_A]

theorem encoderEdge_quad_B (hm : s.tvu.mode = .quad) (level : Level) : s.encoderEdge 7 level =
    s.countChange (if level = (s.line 6).filtered then .forward else .backward) := by
  have h76 : ¬(7 : LineId) = 6 := by decide
  simp only [encoderEdge, hm, if_neg h76, if_true, quadDirection_B]

/-- R105: an encoder edge that does not count. -/
theorem encoderEdge_none {level : Level} (h : s.tvu.mode = .none ∨
    (s.tvu.mode = .pulse ∧ (n ≠ 6 ∨ level = .inactive)) ∨ (n ≠ 6 ∧ n ≠ 7)) : s.encoderEdge n level = s := by
  unfold encoderEdge
  split
  · rfl
  · next hm =>
    refine if_neg fun ⟨h6, ha⟩ => ?_
    obtain h | ⟨-, h | h⟩ | ⟨h, -⟩ := h
    · simp [hm] at h
    · exact h h6
    · simp [ha] at h
    · exact h h6
  · next hm =>
    obtain h | ⟨h, -⟩ | ⟨h6, h7⟩ := h
    · simp [hm] at h
    · simp [hm] at h
    · rw [if_neg h6, if_neg h7]

/-- Settles O32: an encoder edge by travel mode and line. -/
theorem encoderEdgesCount : Obligations.EncoderEdgesCount := by
  intro s n r hr hf hrec h1 hs
  have hans : exec (.edgeAccept n) s = .next ((s.edgeTaken n r).encoderEdge n r.pending) := by
    rw [execEdgeAccept_now hr hrec h1 hs, acceptEdge_of_enc hf]
  have hline : ∀ m, ((s.edgeTaken n r).encoderEdge n r.pending).line m = (s.edgeTaken n r).line m :=
    line_of_llu (encoderEdge_llu _ _ _)
  refine ⟨_, hans, ?_, fun m hm => ?_, fun hm h6 ha => ?_, fun hm h6 => ?_, fun hm h7 => ?_, fun h => ?_, ?_⟩
  · rw [hline, edgeTaken_line_self]
  · rw [hline, edgeTaken_line_ne hm]
  · subst h6
    rw [ha, encoderEdge_pulse (s := s.edgeTaken 6 r) hm]
    exact ⟨edgeTaken_countTaken s 6 r _, countChange_noHeadDue _ _⟩
  · subst h6
    rw [encoderEdge_quad_A (s := s.edgeTaken 6 r) hm, edgeTaken_line_ne (by decide)]
    exact ⟨countChange_noHeadDue _ _, fun h => by rw [if_neg h]; exact edgeTaken_countTaken s 6 r _,
      fun h => by rw [if_pos h]; exact edgeTaken_countTaken s 6 r _⟩
  · subst h7
    rw [encoderEdge_quad_B (s := s.edgeTaken 7 r) hm, edgeTaken_line_ne (by decide)]
    exact ⟨countChange_noHeadDue _ _, fun h => by rw [if_pos h]; exact edgeTaken_countTaken s 7 r _,
      fun h => by rw [if_neg h]; exact edgeTaken_countTaken s 7 r _⟩
  · rw [encoderEdge_none (s := s.edgeTaken n r) h]
    exact ⟨rfl, rfl, rfl⟩
  · obtain e | ⟨d, e⟩ := encoderEdge_cases (s.edgeTaken n r) n r.pending <;> rw [e]
    · exact ⟨rfl, rfl, rfl, rfl, rfl, rfl, rfl, rfl, rfl, rfl, rfl⟩
    · obtain ⟨hmode, htime, hlimits⟩ := countChange_kept (s.edgeTaken n r) d
      refine ⟨countChange_history _ d, hmode, htime, hlimits, ?_⟩
      simp [edgeTaken]

/-! ### ZERO edges (R115) -/

theorem signedDifference_sub (a x : Word) : signedDifference (a - x) 0#32 = signedDifference a x := by
  simp [signedDifference]

/-- Settles O33: the rebase of a selected edge, and the edge that is not. -/
theorem zeroEdgeKeepsDistances : Obligations.ZeroEdgeKeepsDistances := by
  intro s n r hr hf hrec h1 hs x
  have hans : exec (.edgeAccept n) s = _ := execEdgeAccept_now hr hrec h1 hs
  rw [acceptEdge_of_zero hf] at hans
  by_cases hp : (s.line n).settings.edges.Picks r.pending
  · rw [if_pos ((EdgeSelection.selects_iff _ _).2 hp)] at hans
    have hline : ∀ m, (s.edgeTaken n r).zeroRebase.line m = ((s.edgeTaken n r).line m).rebaseRecord x :=
      fun m => line_mapLines (s.edgeTaken n r) m _
    refine ⟨_, hans, ?_, fun h => absurd hp h, fun _ => ⟨fun m hm => ?_, rfl, rfl, ?_, ?_⟩,
      rfl, rfl, rfl, rfl, rfl, rfl, rfl, rfl⟩
    · rw [hline, edgeTaken_line_self]
      rfl
    · rw [hline, edgeTaken_line_ne hm]
    · change ((s.asc.travel.map fun a => { a with due := a.due - x }).map _) = _
      rw [List.map_map]
      exact List.map_congr_left fun a _ => signedDifference_sub _ _
    · change ((s.tvu.history.map (HistoryEntry.rebase x)).map _) = _
      rw [List.map_map]
      exact List.map_congr_left fun a _ => signedDifference_sub _ _
  · rw [if_neg (by rw [(EdgeSelection.selects_false_iff _ _).2 hp]; simp)] at hans
    exact ⟨_, hans, edgeTaken_line_self s n r, fun _ => ⟨fun m hm => edgeTaken_line_ne hm, rfl, rfl⟩,
      fun h => absurd h hp, rfl, rfl, rfl, rfl, rfl, rfl, rfl, rfl⟩

/-! ### First sights and reversions (R121, R122) -/

theorem sightLine_of_width (h : 0 < (s.line n).settings.filterWidth) : s.sightLine n =
    (s.markSampled n).mapLine n fun l => { l with record := some (s.firstSightRecord n) } :=
  if_neg (Nat.pos_iff_ne_zero.1 h)

theorem sightLine_of_zero (h : (s.line n).settings.filterWidth = 0) :
    s.sightLine n = (s.markSampled n).acceptEdge n (s.firstSightRecord n) := if_pos h

/-- Settles O35: the record of a first sight, kept or accepted at once. -/
theorem firstSightRecordsOrAccepts : Obligations.FirstSightRecordsOrAccepts := by
  intro s n hr hf hrec hs
  have hans := execFirstSight_now hr hf hrec hs
  refine ⟨s.firstSightRecord n, ?_, rfl, fun hn hl => ?_, fun hn hl => ?_, fun hn => if_neg hn, fun hw => ?_,
    fun hw => ⟨?_, ?_⟩⟩
  · change (s.line n).filtered.other ≠ _
    cases (s.line n).filtered <;> decide
  · simp [firstSightRecord, hn, locked, hr, hl]
  · simp [firstSightRecord, hn, locked, hl]
  · rw [sightLine_of_width hw] at hans
    refine ⟨_, hans, ?_, fun m hm => ?_, rfl, rfl, rfl, rfl, rfl, rfl, rfl, rfl, rfl, rfl⟩
    · rw [line_mapLine_self, markSampled, line_mapLine_self]
    · rw [line_mapLine_ne _ _ hm, markSampled, line_mapLine_ne _ _ hm]
  · rw [hans, sightLine_of_zero hw, execEdgeAccept_now (r := s.firstSightRecord n)]
    · refine congrArg _ (acceptEdge_congr ?_ ?_)
      · simp only [markSampled, mapLine_mapLine]
        rfl
      · rw [settings_markSampled, settings_markSampled, line_mapLine_self]
    · exact hr
    · rw [line_mapLine_self]
    · exact (show (s.firstSightRecord n).remaining = 0 from hw).le.trans (by omega)
    · rw [line_mapLine_self]
      exact hs
  · rw [sightLine_of_zero hw] at hans
    have hline : (s.markSampled n).line n = { s.line n with sampled := true } := line_mapLine_self s n _
    refine ⟨_, hans, ?_⟩
    obtain e | e := acceptEdge_line_self (s.markSampled n) n (s.firstSightRecord n) <;> rw [e, hline] <;>
      exact ⟨rfl, rfl, rfl, rfl, rfl, rfl, rfl, rfl, by simp, by simp, by simp, by simp⟩

/-- R123: a SENSE edge that makes no capture changes the level alone. -/
theorem senseEdge_none {level : Level} {stamp : Option Stamp} (h : ¬(s.line n).settings.edges.Picks level ∨
    0 < (s.line n).deadTime ∨ (∀ st, stamp = some st → st.instant = none)) : s.senseEdge n level stamp = s := by
  unfold senseEdge
  dsimp only
  split
  · next hsel =>
    obtain ⟨hp, hd⟩ := hsel
    split
    · next i p =>
      obtain h | h | h := h
      · exact absurd ((EdgeSelection.selects_iff _ _).1 hp) h
      · omega
      · exact absurd (h _ rfl) (by simp)
    · rfl
    · rfl
  · rfl

/-- Settles O36: a reversion, and an edge without a capture. -/
theorem noTraceWithoutCapture : Obligations.NoTraceWithoutCapture := by
  refine ⟨fun s n hr hrec hs => ⟨_, execFilterReversion_now hr hrec hs, ?_, fun m hm => ?_, rfl, rfl, rfl, rfl, rfl, rfl,
    rfl, rfl, rfl, rfl⟩, fun s n r hr hf hrec h1 hs hnone => ?_⟩
  · rw [line_mapLine_self, markSampled, line_mapLine_self]
  · rw [line_mapLine_ne _ _ hm, markSampled, line_mapLine_ne _ _ hm]
  · have hans := execEdgeAccept_now hr hrec h1 hs
    rw [acceptEdge_of_sense hf, senseEdge_none (by rw [edgeTaken_line_self]; exact hnone)] at hans
    exact ⟨_, hans, edgeTaken_line_self s n r, fun m hm => edgeTaken_line_ne hm, rfl, rfl, rfl, rfl, rfl, rfl, rfl, rfl,
      rfl, rfl⟩

end State
end Sys2Proof.Machine
end

section
/-! Captures and their routes (R43 to R48, R123, R126), and the forced release of a line (R81, R93, R97). -/

namespace Sys2Proof.Machine

namespace State

variable {s t : State} {n m : LineId} {r : FilterRecord}

/-! ### The publish route (R48) -/

theorem publishRoute_of_room (c : Fin 8) (seq : Byte) (i : Instant) (h : s.mku.queue.length < 16) :
    s.publishRoute c seq i = { s with mku := { s.mku with
      queue := s.mku.queue ++ [{ channel := c, sequence := seq, instant := i }] } } := if_pos h

theorem publishRoute_of_full (c : Fin 8) (seq : Byte) (i : Instant) (h : 16 ≤ s.mku.queue.length) :
    s.publishRoute c seq i = (s.setFlag .markOutOverrun).count .markOutDrops := if_neg (Nat.not_lt.2 h)

theorem publishRoute_counters (s : State) (c : Fin 8) (seq : Byte) (i : Instant) :
    (s.publishRoute c seq i).mku.counters = s.mku.counters := by
  obtain h | h := Nat.lt_or_ge s.mku.queue.length 16
  · rw [publishRoute_of_room c seq i h]
  · rw [publishRoute_of_full c seq i h]
    rfl

theorem publishRoute_fru_of_room (c : Fin 8) (seq : Byte) (i : Instant) (h : s.mku.queue.length < 16) :
    (s.publishRoute c seq i).fru = s.fru := by rw [publishRoute_of_room c seq i h]

theorem publishRoute_queue_of_room (c : Fin 8) (seq : Byte) (i : Instant) (h : s.mku.queue.length < 16) :
    (s.publishRoute c seq i).mku.queue = s.mku.queue ++ [{ channel := c, sequence := seq, instant := i }] := by
  rw [publishRoute_of_room c seq i h]

theorem publishRoute_fru_of_full (c : Fin 8) (seq : Byte) (i : Instant) (h : 16 ≤ s.mku.queue.length) :
    (s.publishRoute c seq i).fru = ((s.setFlag .markOutOverrun).count .markOutDrops).fru := by
  rw [publishRoute_of_full c seq i h]

theorem publishRoute_queue_of_full (c : Fin 8) (seq : Byte) (i : Instant) (h : 16 ≤ s.mku.queue.length) :
    (s.publishRoute c seq i).mku.queue = s.mku.queue := by
  rw [publishRoute_of_full c seq i h]
  rfl

/-! ### The capture (R43, R44) -/

/-- R43: the state in which the next sequence number of channel `c` has been drawn. -/
def numberDrawn (s : State) (c : Fin 8) : State :=
  { s with mku := { s.mku with counters := s.mku.counters.set c (s.mku.counters.get c + 1#8) } }

theorem takeCapture_unrouted {l : LineSettings} (hp : l.publish = false) (hl : l.localRoute = false) (i : Instant)
    (p : Word) : s.takeCapture l i p = s := by simp [takeCapture, hp, hl]

theorem takeCapture_published {l : LineSettings} (hp : l.publish = true) (hl : l.localRoute = false) (i : Instant)
    (p : Word) : s.takeCapture l i p =
      (s.numberDrawn l.channel).publishRoute l.channel (s.mku.counters.get l.channel) i := by
  simp [takeCapture, hp, hl, numberDrawn]

theorem takeCapture_local {l : LineSettings} (hp : l.publish = false) (hl : l.localRoute = true) (i : Instant)
    (p : Word) : s.takeCapture l i p =
      (s.numberDrawn l.channel).localRoute l.channel (s.mku.counters.get l.channel) i p := by
  simp [takeCapture, hp, hl, numberDrawn]

theorem takeCapture_both {l : LineSettings} (hp : l.publish = true) (hl : l.localRoute = true) (i : Instant)
    (p : Word) : s.takeCapture l i p =
      ((s.numberDrawn l.channel).localRoute l.channel (s.mku.counters.get l.channel) i p).publishRoute
        l.channel (s.mku.counters.get l.channel) i := by
  simp [takeCapture, hp, hl, numberDrawn]

theorem takeCapture_counters {l : LineSettings} (h : l.publish = true ∨ l.localRoute = true) (i : Instant) (p : Word) :
    (s.takeCapture l i p).mku.counters =
      s.mku.counters.set l.channel (s.mku.counters.get l.channel + 1#8) := by
  cases hp : l.publish <;> cases hl : l.localRoute
  · simp [hp, hl] at h
  · rw [takeCapture_local hp hl, localRoute_mku]
    rfl
  · rw [takeCapture_published hp hl, publishRoute_counters]
    rfl
  · rw [takeCapture_both hp hl, publishRoute_counters, localRoute_mku]
    rfl

/-- R123, R126: the edge of a selected kind, outside dead time and with an instant. -/
theorem senseEdge_capture {level : Level} {i : Instant} {p : Word} (hp : (s.line n).settings.edges.Picks level)
    (hd : (s.line n).deadTime = 0) : s.senseEdge n level (some { instant := some i, position := p }) =
      (s.mapLine n LocalLine.startDeadTime).takeCapture (s.line n).settings i p :=
  if_pos ⟨(EdgeSelection.selects_iff _ _).2 hp, hd⟩

/-- R123, R127: line `n` with its edge accepted and its dead time begun. -/
def captureBegun (s : State) (n : LineId) (r : FilterRecord) : State :=
  (s.edgeTaken n r).mapLine n LocalLine.startDeadTime

theorem captureBegun_line_self (s : State) (n : LineId) (r : FilterRecord) : (s.captureBegun n r).line n =
    { s.line n with filtered := r.pending, record := none, sampled := true,
                    deadTime := (s.line n).settings.deadTime, deadCounted := true } := by
  rw [captureBegun, line_mapLine_self, edgeTaken_line_self]
  rfl

theorem captureBegun_line_ne (h : m ≠ n) : (s.captureBegun n r).line m = s.line m := by
  rw [captureBegun, line_mapLine_ne _ _ h, edgeTaken_line_ne h]

/-- R43: behind a drawn number only the counters and the local lines differ from the state before. -/
theorem numberDrawn_captureBegun {l : LineSettings} (hroute : l.publish = true ∨ l.localRoute = true) (i : Instant)
    (p : Word) : (s.captureBegun n r).numberDrawn l.channel =
      { s with llu := ((s.captureBegun n r).takeCapture l i p).llu,
               mku := { s.mku with counters := ((s.captureBegun n r).takeCapture l i p).mku.counters } } := by
  rw [takeCapture_llu, takeCapture_counters hroute]
  rfl

/-- Settles O37: the dead time, the number and the two routes of a capture. -/
theorem captureTakesItsRoutes : Obligations.CaptureTakesItsRoutes := by
  intro s n r i p hr hf hrec h1 hs hpick hdead hstamp c seq
  have hans : exec (.edgeAccept n) s = .next ((s.captureBegun n r).takeCapture (s.line n).settings i p) := by
    have hline := edgeTaken_line_self s n r
    rw [execEdgeAccept_now hr hrec h1 hs, acceptEdge_of_sense hf, hstamp, senseEdge_capture, hline]
    · rfl
    · rw [hline]; exact hpick
    · rw [hline]; exact hdead
  have hline : ∀ m, ((s.captureBegun n r).takeCapture (s.line n).settings i p).line m = (s.captureBegun n r).line m :=
    line_of_llu (takeCapture_llu _ _ _ _)
  refine ⟨_, hans, ?_, fun m hm => ?_, fun hp hl => ?_, fun h => takeCapture_counters h i p, fun hp => ?_,
    fun hp hroom => ?_, fun hp hfull => ?_, fun hl => ?_, fun hl => ?_, ?_⟩
  · rw [hline, captureBegun_line_self]
  · rw [hline, captureBegun_line_ne hm]
  · rw [takeCapture_unrouted hp hl]
    exact ⟨rfl, rfl, rfl, rfl, rfl⟩
  · cases hl : (s.line n).settings.localRoute
    · rw [takeCapture_unrouted hp hl]
      rfl
    · rw [takeCapture_local hp hl, localRoute_mku]
      rfl
  · cases hl : (s.line n).settings.localRoute
    · rw [takeCapture_published hp hl]
      exact publishRoute_queue_of_room (s := (s.captureBegun n r).numberDrawn c) c seq i hroom
    · rw [takeCapture_both hp hl, publishRoute_queue_of_room _ _ _ (by rw [localRoute_mku]; exact hroom), localRoute_mku]
      rfl
  · cases hl : (s.line n).settings.localRoute
    · rw [takeCapture_published hp hl,
        publishRoute_of_full (s := (s.captureBegun n r).numberDrawn (s.line n).settings.channel) _ _ _ hfull]
      exact ⟨rfl, rfl⟩
    · have hfull' : 16 ≤ (((s.captureBegun n r).numberDrawn (s.line n).settings.channel).localRoute
          (s.line n).settings.channel ((s.captureBegun n r).mku.counters.get (s.line n).settings.channel) i
          p).mku.queue.length := by rw [localRoute_mku]; exact hfull
      rw [takeCapture_both hp hl, publishRoute_queue_of_full _ _ _ hfull', publishRoute_fru_of_full _ _ _ hfull',
        localRoute_mku]
      exact ⟨rfl, rfl⟩
  · cases hp : (s.line n).settings.publish
    · rw [takeCapture_unrouted hp hl]
      exact ⟨rfl, rfl, rfl, fun h => absurd h (by simp)⟩
    · rw [takeCapture_published hp hl]
      refine ⟨by simp; rfl, by simp; rfl, by simp; rfl, fun _ => ?_⟩
      split
      · next hroom => exact publishRoute_fru_of_room _ _ _ hroom
      · next hfull => exact publishRoute_fru_of_full _ _ _ (Nat.not_lt.1 hfull)
  · intro s1 u
    have hu : ((s.captureBegun n r).numberDrawn (s.line n).settings.channel).localRoute (s.line n).settings.channel
        seq i p = u := by
      rw [numberDrawn_captureBegun (.inr hl) i p]
      rfl
    have huq : u.mku.queue = s.mku.queue := by rw [← hu, localRoute_mku]; rfl
    cases hp : (s.line n).settings.publish
    · rw [takeCapture_local hp hl]
      exact ⟨congrArg State.sbs hu, congrArg State.asc hu, congrArg State.dcu hu, fun _ => congrArg State.fru hu,
        fun h => absurd h (by simp)⟩
    · have hboth : (s.captureBegun n r).takeCapture (s.line n).settings i p =
          u.publishRoute (s.line n).settings.channel seq i := by rw [takeCapture_both hp hl, ← hu]; rfl
      refine ⟨?_, ?_, ?_, fun h => ?_, fun _ hfull => ?_⟩
      · rw [hboth, publishRoute_sbs]
      · rw [hboth, publishRoute_asc]
      · rw [hboth, publishRoute_dcu]
      · rw [hboth, publishRoute_fru_of_room _ _ _ (by rw [huq]; exact h.resolve_left (by simp))]
      · rw [hboth, publishRoute_fru_of_full _ _ _ (by rw [huq]; exact hfull)]
  · simp [captureBegun, edgeTaken]

end State

/-! ### The forced release (R93, R97) -/

/-- R92: a line that gives back `k` claims: the count falls by `k`, and the countdown stops where it reaches 0. -/
theorem DriveLine.dropClaim_iterate (d : DriveLine) (k : Nat) : DriveLine.dropClaim^[k + 1] d =
    { d with claim := d.claim - (k + 1), countdown := if d.claim ≤ k + 1 then none else d.countdown } := by
  induction k generalizing d with
  | zero => rfl
  | succ k ih =>
    rw [Function.iterate_succ_apply, ih]
    have hcount : d.dropClaim.claim = d.claim - 1 := rfl
    have hdown : d.dropClaim.countdown = if d.claim ≤ 1 then none else d.countdown := rfl
    rw [hcount, hdown, Nat.sub_sub, Nat.add_comm 1]
    congr 1
    by_cases h : d.claim ≤ k + 1 + 1
    · rw [if_pos h, if_pos (by omega)]
    · rw [if_neg h, if_neg (by omega), if_neg (by omega)]

theorem DriveLine.dropClaim_iterate_claim (d : DriveLine) (k : Nat) : (DriveLine.dropClaim^[k] d).claim = d.claim - k := by
  cases k with
  | zero => rfl
  | succ k => rw [dropClaim_iterate]

theorem DriveLine.dropClaim_iterate_limit (d : DriveLine) (k : Nat) : (DriveLine.dropClaim^[k] d).limit = d.limit := by
  cases k with
  | zero => rfl
  | succ k => rw [dropClaim_iterate]

theorem DriveLine.dropClaim_iterate_countdown {d : DriveLine} {k : Nat} (h : k < d.claim) :
    (DriveLine.dropClaim^[k] d).countdown = d.countdown := by
  cases k with
  | zero => rfl
  | succ k => rw [dropClaim_iterate, if_neg (by omega)]

theorem DriveLine.dropClaim_iterate_stopped {d : DriveLine} {k : Nat} (h : d.claim ≤ k) (h0 : 0 < d.claim) :
    (DriveLine.dropClaim^[k] d).countdown = none := by
  cases k with
  | zero => omega
  | succ k => rw [dropClaim_iterate, if_pos h]

theorem DriveLine.dropClaim_iterate_none {d : DriveLine} (k : Nat) (h : d.countdown = none) :
    (DriveLine.dropClaim^[k] d).countdown = none := by
  cases k with
  | zero => exact h
  | succ k =>
    rw [dropClaim_iterate, h]
    exact ite_self none

theorem Dcu.foldl_releaseAll {δ : Type} (l : List (Action δ)) (d : Dcu) (m : LineId) :
    (l.foldl (fun d a => d.releaseAll a.held) d).lines.get m = DriveLine.dropClaim^[holders m l] (d.lines.get m) := by
  induction l generalizing d with
  | nil => rfl
  | cons a l ih =>
    rw [List.foldl_cons, ih, holders_cons, releaseAll, Table.get_ofFn]
    cases a.held.get m
    · simp
    · rw [if_pos rfl, ← Function.iterate_succ_apply, Bool.toNat_true, Nat.add_comm]

namespace State

variable {s : State} {n m : LineId}

/-- R93: what a cancellation leaves of a drive line. -/
theorem cancelWhere_drive (s : State) (w : HeldSet → Bool) (m : LineId) : (s.cancelWhere w).drive m =
    DriveLine.dropClaim^[holders m (s.asc.time.filter fun a => w a.held) +
      holders m (s.asc.travel.filter fun a => w a.held)] (s.drive m) := by
  change (cancelList _ s.asc.travel _ (cancelList _ s.asc.time _ _).dcu).dcu.lines.get m = _
  rw [cancelList_dcu, cancelList_dcu, Dcu.foldl_releaseAll, Dcu.foldl_releaseAll, Nat.add_comm,
    Function.iterate_add_apply]
  rfl

theorem cancelWhere_schedules (s : State) (w : HeldSet → Bool) :
    (s.cancelWhere w).asc.time = (s.asc.time.filter fun a => !w a.held) ∧
      (s.cancelWhere w).asc.travel = (s.asc.travel.filter fun a => !w a.held) :=
  ⟨cancelList_schedule _ _ _ _, cancelList_schedule _ _ _ _⟩

theorem holders_held {δ : Type} (n : LineId) (l : List (Action δ)) :
    holders n (l.filter fun a => a.held.get n) = holders n l := by
  unfold holders
  rw [List.filter_filter]
  simp

theorem execOnTimeExpiry_now (hr : s.running = true) (hc : (s.drive n).counted = false)
    (hd : (s.drive n).countdown = some 1) : exec (.onTimeExpiry n) s = .next (s.expireOnTime n) := by
  change Host.Outcome.next _ = _
  rw [if_pos ⟨hr, hd, hc⟩]

theorem DriveLine.demand_iff (d : DriveLine) : (0 < d.claim → d.demand = .active) ∧ (d.claim = 0 → d.demand = .inactive) :=
  ⟨fun h => if_pos h, fun h => if_neg (by omega)⟩

/-- R97: the drive lines as they stand when a forced release begins to cancel. -/
def stopped (s : State) (n : LineId) : State :=
  ((s.mapDrive n fun d => { d with counted := true }).setFlag .driveTimeout).mapDrive n
    fun d => { d with countdown := none }

theorem stopped_drive_self (s : State) (n : LineId) :
    (s.stopped n).drive n = { s.drive n with counted := true, countdown := none } := by
  simp only [stopped, drive, mapDrive, setFlag, Table.modify_modify, Table.get_modify_self]
  rfl

theorem stopped_drive_ne (h : m ≠ n) : (s.stopped n).drive m = s.drive m := by
  simp only [stopped, drive, mapDrive, setFlag, Table.modify_modify, Table.get_modify_ne _ _ h]

/-- Settles O30: what the cancellation of a forced release takes from each line. -/
theorem onTimeExpiryReleasesTheLine : Obligations.OnTimeExpiryReleasesTheLine := by
  intro s n hr hc hd held kept
  have hans := execOnTimeExpiry_now hr hc hd
  obtain ⟨htime, htravel⟩ := cancelWhere_schedules (s.stopped n) fun h => h.get n
  have hdrive : ∀ m, (s.expireOnTime n).drive m =
      DriveLine.dropClaim^[holders m (held s.asc.time) + holders m (held s.asc.travel)] ((s.stopped n).drive m) :=
    cancelWhere_drive (s.stopped n) fun h => h.get n
  have hkeeps : ∀ m, ((s.stopped n).drive m).claim = (s.drive m).claim ∧
      ((s.stopped n).drive m).limit = (s.drive m).limit := fun m => by
    by_cases hm : m = n
    · subst hm; rw [stopped_drive_self]; exact ⟨rfl, rfl⟩
    · rw [stopped_drive_ne hm]; exact ⟨rfl, rfl⟩
  have hclaim : ∀ m, ((s.expireOnTime n).drive m).claim =
      (s.drive m).claim - holders m (held s.asc.time) - holders m (held s.asc.travel) := fun m => by
    rw [hdrive, DriveLine.dropClaim_iterate_claim, (hkeeps m).1, Nat.sub_sub]
  refine ⟨_, hans, rfl, htime, htravel, cancelWhere_free _ _, rfl, fun m => ⟨?_, hclaim m⟩, fun m hm => ?_,
    fun hsound => ?_, rfl, rfl, rfl, rfl, rfl, rfl, rfl, rfl⟩
  · rw [hdrive, DriveLine.dropClaim_iterate_limit, (hkeeps m).2]
  · have hm' := hdrive m
    rw [stopped_drive_ne hm] at hm'
    refine ⟨fun h1 h2 => by rw [hm', h1, h2]; rfl, fun h => ⟨(DriveLine.demand_iff _).1 h, ?_⟩,
      fun h0 h => ⟨(DriveLine.demand_iff _).2 h, ?_⟩⟩
    · rw [hm', DriveLine.dropClaim_iterate_countdown]
      rw [hclaim] at h
      omega
    · rw [hm', DriveLine.dropClaim_iterate_stopped _ h0]
      rw [hclaim] at h
      omega
  · obtain ⟨-, -, -, hcount⟩ := hsound
    have h0 : ((s.expireOnTime n).drive n).claim = 0 := by
      rw [hclaim, holders_held, holders_held, hcount n]
      omega
    refine ⟨h0, (DriveLine.demand_iff _).2 h0, ?_⟩
    rw [hdrive, stopped_drive_self]
    exact DriveLine.dropClaim_iterate_none _ rfl

end State
end Sys2Proof.Machine
end

section
/-! The position at an instant (R110, R112, R113). -/

namespace Sys2Proof.Machine

/-! ### The entries of a history (R110) -/

theorem consecutive_cycle_of_mem {a e : HistoryEntry} {l : List HistoryEntry} (h : ConsecutiveCycles (a :: l))
    (he : e ∈ a :: l) : ∃ k ≤ l.length, e.cycle = a.cycle + BitVec.ofNat 32 k := by
  induction l generalizing a with
  | nil =>
    rw [List.mem_singleton] at he
    exact ⟨0, le_rfl, by simp [he]⟩
  | cons b l ih =>
    obtain ⟨hb, hl⟩ := h
    obtain rfl | he := List.mem_cons.1 he
    · exact ⟨0, Nat.zero_le _, by simp⟩
    · obtain ⟨k, hk, hc⟩ := ih hl he
      refine ⟨k + 1, Nat.succ_le_succ hk, ?_⟩
      rw [hc, hb, BitVec.ofNat_add, BitVec.add_assoc, BitVec.add_comm 1#32]

/-- R110: the newest of at most 16 consecutive entries lies at most 15 cycles behind the oldest. -/
theorem consecutive_distance {a e : HistoryEntry} {l : List HistoryEntry} (h : ConsecutiveCycles (a :: l))
    (hlen : (a :: l).length ≤ 16) (he : e ∈ a :: l) : 0 ≤ (e.cycle - a.cycle).toInt := by
  obtain ⟨k, hk, hc⟩ := consecutive_cycle_of_mem h he
  rw [List.length_cons] at hlen
  rw [hc]
  have hnat : (a.cycle + BitVec.ofNat 32 k - a.cycle) = BitVec.ofNat 32 k := by ring
  rw [hnat, BitVec.toInt_eq_toNat_cond, BitVec.toNat_ofNat]
  split <;> omega

theorem historyPosition_cons (a : HistoryEntry) (l : List HistoryEntry) (c : Word) :
    historyPosition (a :: l) c = if a.cycle = c then some a.position else historyPosition l c := by
  unfold historyPosition
  by_cases h : a.cycle = c
  · rw [if_pos h, List.find?_cons_of_pos (by simpa using h)]
    rfl
  · rw [if_neg h, List.find?_cons_of_neg (by simpa using h)]

/-- R110, R112: no two entries name one cycle, so that a cycle's entry is the one found. -/
theorem historyPosition_of_mem {l : List HistoryEntry} (h : ConsecutiveCycles l) (hlen : l.length ≤ 16)
    {e : HistoryEntry} (he : e ∈ l) : historyPosition l e.cycle = some e.position := by
  induction l with
  | nil => exact absurd he (List.not_mem_nil)
  | cons a l ih =>
    rw [historyPosition_cons]
    obtain rfl | hmem := List.mem_cons.1 he
    · exact if_pos rfl
    · rw [if_neg fun heq => ?_]
      · cases l with
        | nil => exact absurd hmem (List.not_mem_nil)
        | cons b l => exact ih h.2 (by simp at hlen ⊢; omega) hmem
      · cases l with
        | nil => exact absurd hmem (List.not_mem_nil)
        | cons b l =>
          obtain ⟨k, hk, hc⟩ := consecutive_cycle_of_mem h.2 hmem
          simp only [List.length_cons] at hlen
          rw [hc, h.1] at heq
          have h0 : (1#32 + BitVec.ofNat 32 k) = 0#32 := by
            have := congrArg (· - a.cycle) heq
            simp only [BitVec.sub_self] at this
            rw [this]
            ring
          have := congrArg BitVec.toNat h0
          simp only [BitVec.toNat_add, BitVec.toNat_ofNat] at this
          omega

/-! ### The interpolation (R113) -/

theorem signedDifference_add_ofInt (a : Word) {k : Int} (h1 : -2147483648 ≤ k) (h2 : k < 2147483648) :
    signedDifference (a + BitVec.ofInt 32 k) a = k := by
  have e : a + BitVec.ofInt 32 k - a = BitVec.ofInt 32 k := by ring
  rw [signedDifference, e, BitVec.toInt_ofInt_eq_self (by norm_num) (by norm_num; omega) (by norm_num; omega)]

theorem signedDifference_range (a b : Word) : -2147483648 ≤ signedDifference a b ∧ signedDifference a b < 2147483648 := by
  have h1 := (a - b).le_toInt
  have h2 := (a - b).toInt_lt
  exact ⟨by norm_num at h1; rwa [← BitVec.toInt_sub] at h1, by norm_num at h2; rwa [← BitVec.toInt_sub] at h2⟩

/-- A share below 1 of a distance lies between 0 and the distance. -/
theorem share_bounds {d : Int} {num den : Nat} (h : num < den) (hd : 0 ≤ d) : 0 ≤ d * num / den ∧ d * num / den ≤ d := by
  have hden : (0 : Int) < den := by omega
  refine ⟨Int.ediv_nonneg (Int.mul_nonneg hd (Int.natCast_nonneg _)) hden.le, ?_⟩
  have hle : d * num ≤ d * den := Int.mul_le_mul_of_nonneg_left (by omega) hd
  calc d * num / den ≤ d * den / den := Int.ediv_le_ediv hden hle
    _ = d := Int.mul_ediv_cancel _ hden.ne'

theorem interpolate_ahead {a b : Word} {num den : Nat} (hd : 0 ≤ signedDifference b a) :
    interpolate a b num den = a + BitVec.ofInt 32 (signedDifference b a * num / den) := by
  rw [interpolate, Int.tdiv_eq_ediv_of_nonneg (Int.mul_nonneg hd (Int.natCast_nonneg _))]

theorem interpolate_behind {a b : Word} {num den : Nat} (hd : signedDifference b a ≤ 0) :
    interpolate a b num den = a + BitVec.ofInt 32 (-(-signedDifference b a * num / den)) := by
  have h0 : 0 ≤ -signedDifference b a * num := Int.mul_nonneg (by omega) (Int.natCast_nonneg _)
  rw [interpolate, ← Int.tdiv_eq_ediv_of_nonneg h0, Int.neg_mul, Int.neg_tdiv, neg_neg]

namespace State

variable {s : State} {i : Instant}

/-! ### The position at an instant (R112) -/

theorem positionAt_later (h : 0 < (i.cycle - s.now.cycle).toInt ∨ (i.cycle = s.now.cycle ∧ s.now.phase ≤ i.phase)) :
    s.positionAt i = some s.tvu.position := if_pos h

/-- R112: an instant that lies before the present one does not lie at or after it. -/
theorem not_later (h : (i.cycle - s.now.cycle).toInt < 0 ∨ (i.cycle = s.now.cycle ∧ i.phase < s.now.phase)) :
    ¬(0 < (i.cycle - s.now.cycle).toInt ∨ (i.cycle = s.now.cycle ∧ s.now.phase ≤ i.phase)) := by
  obtain h | ⟨hc, hp⟩ := h
  · rintro (h' | ⟨hc, -⟩)
    · omega
    · simp [hc] at h
  · rintro (h' | ⟨-, hp'⟩)
    · simp [hc] at h'
    · omega

theorem positionAt_noHistory
    (h : ¬(0 < (i.cycle - s.now.cycle).toInt ∨ (i.cycle = s.now.cycle ∧ s.now.phase ≤ i.phase)))
    (hh : s.tvu.history = []) : s.positionAt i = none := by
  simp only [positionAt, if_neg h, hh]

theorem positionAt_beforeHistory {e : HistoryEntry} {rest : List HistoryEntry}
    (h : ¬(0 < (i.cycle - s.now.cycle).toInt ∨ (i.cycle = s.now.cycle ∧ s.now.phase ≤ i.phase)))
    (hh : s.tvu.history = e :: rest) (hbefore : (i.cycle - e.cycle).toInt < 0) : s.positionAt i = none := by
  simp only [positionAt, if_neg h, hh, if_pos hbefore]

theorem positionAt_presentCycle {o : HistoryEntry} {rest : List HistoryEntry} {a : Word}
    (h : ¬(0 < (i.cycle - s.now.cycle).toInt ∨ (i.cycle = s.now.cycle ∧ s.now.phase ≤ i.phase)))
    (hh : s.tvu.history = o :: rest) (hin : 0 ≤ (i.cycle - o.cycle).toInt) (hc : i.cycle = s.now.cycle)
    (ha : historyPosition s.tvu.history s.now.cycle = some a) :
    s.positionAt i = some (interpolate a s.tvu.position i.phase s.now.phase) := by
  rw [hh] at ha
  simp only [positionAt, if_neg h, hh, if_neg (Int.not_lt.2 hin), if_pos hc, ha]

theorem positionAt_earlierCycle {o : HistoryEntry} {rest : List HistoryEntry} {a b : Word}
    (h : ¬(0 < (i.cycle - s.now.cycle).toInt ∨ (i.cycle = s.now.cycle ∧ s.now.phase ≤ i.phase)))
    (hh : s.tvu.history = o :: rest) (hin : 0 ≤ (i.cycle - o.cycle).toInt) (hc : i.cycle ≠ s.now.cycle)
    (ha : historyPosition s.tvu.history i.cycle = some a)
    (hb : historyPosition s.tvu.history (i.cycle + 1#32) = some b) :
    s.positionAt i = some (interpolate a b i.phase s.period) := by
  rw [hh] at ha hb
  simp only [positionAt, if_neg h, hh, if_neg (Int.not_lt.2 hin), if_neg hc, ha, hb]

end State

/-- Settles O34: the position at an instant, by its place in the history, and the interpolation between two ends. -/
theorem interpolationLiesBetween : Obligations.InterpolationLiesBetween := by
  constructor
  · intro s i ahead
    refine ⟨State.positionAt_later, fun hpast => ⟨State.positionAt_noHistory (State.not_later hpast),
      fun e hhead hbefore => ?_⟩, fun _ hsound e he hec => ?_⟩
    · obtain ⟨rest, hh⟩ := List.head?_eq_some_iff.1 hhead
      exact State.positionAt_beforeHistory (State.not_later hpast) hh hbefore
    · obtain ⟨hlen, hcons, -, -⟩ := hsound
      have hfind : historyPosition s.tvu.history i.cycle = some e.position :=
        hec ▸ historyPosition_of_mem hcons hlen he
      obtain ⟨o, rest, hh⟩ := List.exists_cons_of_ne_nil (List.ne_nil_of_mem he)
      have hin : 0 ≤ (i.cycle - o.cycle).toInt := by
        rw [hh] at hcons hlen he
        exact hec ▸ consecutive_distance hcons hlen he
      refine ⟨fun hc hp => ?_, fun hbefore f hf hfc => ?_⟩
      · exact State.positionAt_presentCycle (State.not_later (.inr ⟨hc, hp⟩)) hh hin hc (hc ▸ hfind)
      · refine State.positionAt_earlierCycle (State.not_later (.inl hbefore)) hh hin (fun hc => ?_) hfind
          (hfc ▸ historyPosition_of_mem hcons hlen hf)
        have hzero : ahead = 0 := by simp [ahead, hc]
        omega
  · intro a b num den hlt d
    have hrange := signedDifference_range b a
    refine ⟨fun hd => ?_, fun hd => ?_⟩
    · obtain ⟨h0, h1⟩ := share_bounds (d := signedDifference b a) hlt hd
      refine ⟨interpolate_ahead hd, ?_⟩
      rw [interpolate_ahead hd, signedDifference_add_ofInt _ (by omega) (by omega)]
      exact ⟨h0, h1⟩
    · obtain ⟨h0, h1⟩ := share_bounds (d := -signedDifference b a) hlt (by omega)
      refine ⟨?_, ?_⟩
      · rw [interpolate_behind hd, BitVec.ofInt_neg, ← sub_eq_add_neg]
      · rw [interpolate_behind hd, signedDifference_add_ofInt _ (by omega) (by omega)]
        omega

end Sys2Proof.Machine
end

section
/-! The sending side of the line pair (R136, R141 to R146, R190): the choice of a candidate, the bits of an attempt, and
the transmit fault. -/

/-! ### The bits of a frame (R190) -/

namespace Sys2Proof.WireFrame

theorem bits_zero (f : WireFrame) : f.bits.getD 0 true = false := rfl

theorem bits_class (f : WireFrame) {i : Nat} (h : i < 3) : f.bits.getD (1 + i) true = f.cls.getMsbD i := by
  rw [bits, Nat.add_comm 1, List.getD_cons_succ, coveredBits, List.append_assoc, List.getD_append _ _ _ _ (by simpa),
    bitsOf_getD _ _ _ h]

theorem bits_source (f : WireFrame) {i : Nat} (h : i < 5) : f.bits.getD (4 + i) true = f.source.getMsbD i := by
  rw [bits, show 4 + i = 3 + i + 1 by omega, List.getD_cons_succ, coveredBits, List.append_assoc,
    List.getD_append_right _ _ _ _ (by simp), List.append_assoc, length_bitsOf, Nat.add_sub_cancel_left,
    List.getD_append _ _ _ _ (by simpa), bitsOf_getD _ _ _ h]

theorem bits_length (f : WireFrame) {i : Nat} (h : i < 4) : f.bits.getD (9 + i) true = f.length.getMsbD i := by
  rw [bits, show 9 + i = 3 + (5 + i) + 1 by omega, List.getD_cons_succ, coveredBits, List.append_assoc,
    List.getD_append_right _ _ _ _ (by simp), List.append_assoc, length_bitsOf, Nat.add_sub_cancel_left,
    List.getD_append_right _ _ _ _ (by simp), List.append_assoc, length_bitsOf, Nat.add_sub_cancel_left,
    List.getD_append _ _ _ _ (by simpa), bitsOf_getD _ _ _ h]

/-- The bits behind the header. -/
theorem bits_behindHeader (f : WireFrame) (k : Nat) : f.bits.getD (13 + k) true =
    (bytesBits f.payload ++ (bitsOf f.check ++ [true, true])).getD k true := by
  rw [bits, show 13 + k = 3 + (5 + (4 + k)) + 1 by omega, List.getD_cons_succ, coveredBits, List.append_assoc,
    List.getD_append_right _ _ _ _ (by simp), List.append_assoc, length_bitsOf, Nat.add_sub_cancel_left,
    List.getD_append_right _ _ _ _ (by simp), List.append_assoc, length_bitsOf, Nat.add_sub_cancel_left,
    List.getD_append_right _ _ _ _ (by simp), length_bitsOf, Nat.add_sub_cancel_left]

theorem bits_payload (f : WireFrame) {j i : Nat} (hj : j < f.payload.length) (hi : i < 8) :
    f.bits.getD (13 + 8 * j + i) true = (byteAt f.payload j).getMsbD i := by
  rw [Nat.add_assoc, bits_behindHeader, List.getD_append _ _ _ _ (by rw [length_bytesBits]; omega),
    bytesBits_getD _ _ _ _ hj hi]

theorem bits_check (f : WireFrame) {i : Nat} (h : i < 16) :
    f.bits.getD (13 + 8 * f.payload.length + i) true = f.check.getMsbD i := by
  rw [Nat.add_assoc, bits_behindHeader, List.getD_append_right _ _ _ _ (by rw [length_bytesBits]; omega),
    length_bytesBits, Nat.add_sub_cancel_left, List.getD_append _ _ _ _ (by simpa), bitsOf_getD _ _ _ h]

/-- R190: both bits of the end slot, and the line behind it, are recessive. -/
theorem bits_endSlot (f : WireFrame) (k : Nat) : f.bits.getD (13 + 8 * f.payload.length + 16 + k) true = true := by
  rw [Nat.add_assoc, Nat.add_assoc, bits_behindHeader, List.getD_append_right _ _ _ _ (by rw [length_bytesBits]; omega),
    length_bytesBits, Nat.add_sub_cancel_left, List.getD_append_right _ _ _ _ (by simp), length_bitsOf,
    Nat.add_sub_cancel_left]
  match k with
  | 0 => rfl
  | 1 => rfl
  | _ + 2 => rfl

end Sys2Proof.WireFrame

namespace Sys2Proof.Machine

namespace State

variable {s : State}

/-! ### The choice of a candidate (R141, R142) -/

theorem mayBegin_of {run : Nat} (hx : s.lpi.transmission = none) (hd : s.lpi.decoder = .outside run) (hrun : 3 ≤ run)
    (hs : s.lpi.state ≠ .silent) (hc : s.lpi.chosen = false) : s.mayBegin = true := by
  simp [mayBegin, lineIdle, hx, hd, hs, hc, Config.gapBits, hrun]

/-- R137, R141, R150: no choice falls in a tick in which a frame is on the wire, the line is not idle, or one was made. -/
theorem mayBegin_not (h : s.lpi.state = .silent ∨ s.lpi.transmission ≠ none ∨ s.lpi.chosen = true ∨
    ∀ run, s.lpi.decoder = .outside run → run < 3) : s.mayBegin = false := by
  obtain h | h | h | h := h
  · simp [mayBegin, h]
  · simp [mayBegin, h]
  · simp [mayBegin, h]
  · have hidle : s.lineIdle = false := by
      cases hd : s.lpi.decoder with
      | outside run =>
        simp only [lineIdle, hd]
        exact decide_eq_false (Nat.not_le.2 (h run hd))
      | _ => simp [lineIdle, hd]
    simp [mayBegin, hidle]

theorem execTransmitStart_now (h : s.mayBegin = true) : exec .transmitStart s = .next s.chooseCandidate := by
  change Host.Outcome.next _ = _
  rw [if_pos h]

theorem execTransmitStart_not (h : s.mayBegin = false) : exec .transmitStart s = .next s := by
  change Host.Outcome.next _ = _
  rw [if_neg (by simp [h])]

/-- R141: the state in which the choice of this tick has been made. -/
def choiceMade (s : State) : State := { s with lpi := { s.lpi with chosen := true } }

theorem chooseCandidate_beacon (ha : s.lpi.state = .active) (hs : s.ltu.slot = .offered) : s.chooseCandidate =
    (s.choiceMade.sendFrame .beacon s.beaconFrame).mapLtu fun l => { l with slot := .sending } := by
  have hc : s.choiceMade.candidate = some .beacon := by simp [candidate, choiceMade, ha, hs]
  change s.choiceMade.beginAttempt = _
  simp only [beginAttempt, hc]
  rfl

theorem chooseCandidate_mark {q : QueuedMark} {rest : List QueuedMark} (ha : s.lpi.state = .active)
    (hs : s.ltu.slot ≠ .offered) (hq : s.mku.queue = q :: rest) :
    s.chooseCandidate = s.choiceMade.sendFrame .mark (s.markFrame q) := by
  have hc : s.choiceMade.candidate = some .mark := by simp [candidate, choiceMade, ha, hs, hq]
  have hq' : s.choiceMade.mku.queue = q :: rest := hq
  change s.choiceMade.beginAttempt = _
  simp only [beginAttempt, hc, hq']
  rfl

theorem chooseCandidate_report {p : Fin 8}
    (h : (s.lpi.state = .active ∧ s.ltu.slot ≠ .offered ∧ s.mku.queue = []) ∨ s.lpi.state = .reportOnly)
    (hp : s.fru.reportSlot = .waiting p) : s.chooseCandidate =
      { s.choiceMade.sendFrame .report (s.reportFrame p) with fru := { s.fru with reportSlot := .sending p } } := by
  have hc : s.choiceMade.candidate = some .report := by
    obtain ⟨ha, hs, hq⟩ | hr := h
    · simp [candidate, choiceMade, ha, hs, hq, hp]
    · simp [candidate, choiceMade, hr, hp]
  have hp' : s.choiceMade.fru.reportSlot = .waiting p := hp
  change s.choiceMade.beginAttempt = _
  simp only [beginAttempt, hc, hp']
  rfl

theorem candidate_report_none (h : ∀ p, s.fru.reportSlot ≠ .waiting p) (hs : s.lpi.state = .reportOnly ∨
    (s.lpi.state = .active ∧ s.ltu.slot ≠ .offered ∧ s.mku.queue = [])) : s.candidate = none := by
  cases hslot : s.fru.reportSlot with
  | waiting p => exact absurd hslot (h p)
  | empty =>
    obtain hs | ⟨ha, hs, hq⟩ := hs
    · simp [candidate, hs, hslot]
    · simp [candidate, ha, hs, hq, hslot]
  | sending p =>
    obtain hs | ⟨ha, hs, hq⟩ := hs
    · simp [candidate, hs, hslot]
    · simp [candidate, ha, hs, hq, hslot]

theorem chooseCandidate_none (h : s.choiceMade.candidate = none) : s.chooseCandidate = s.choiceMade := by
  change s.choiceMade.beginAttempt = _
  simp only [beginAttempt, h]

theorem beaconFrame_malformed (s : State) : s.beaconFrame.malformed = false :=
  frameOf_malformed _ _ _ 8 rfl rfl (by omega)

theorem markFrame_malformed (s : State) (q : QueuedMark) : (s.markFrame q).malformed = false :=
  frameOf_malformed _ _ _ 6 rfl rfl (by omega)

/-- R155: a tick behind its choice begins no attempt. -/
theorem lpiTick_chosen (hx : s.lpi.transmission = none) (hc : s.lpi.chosen = true) : s.lpiTick = s := by
  simp [lpiTick, hx, mayBegin_not (.inr (.inr (.inl hc)))]

theorem nextBit_idle (l : Lpi) (h : l.transmission = none) : l.nextBit.transmission = none ∧ l.nextBit.chosen = false := by
  simp [Lpi.nextBit, h]

/-- Settles O40: the choice in its order, the tick behind it, and the bits of the frame on the wire. -/
theorem candidatesGoInOrder : Obligations.CandidatesGoInOrder := by
  refine ⟨fun s run hx hd hrun hc ha hs => ⟨_, s.beaconFrame,
      (execTransmitStart_now (mayBegin_of hx hd hrun (by simp [ha]) hc)).trans
        (congrArg Host.Outcome.next (chooseCandidate_beacon ha hs)),
      rfl, rfl, rfl, rfl, beaconFrame_malformed s, rfl, rfl, rfl, rfl, rfl, rfl, rfl, rfl, rfl, rfl⟩,
    fun s run q rest hx hd hrun hc ha hs hq => ⟨_, s.markFrame q,
      (execTransmitStart_now (mayBegin_of hx hd hrun (by simp [ha]) hc)).trans
        (congrArg Host.Outcome.next (chooseCandidate_mark ha hs hq)),
      rfl, rfl, rfl, rfl, markFrame_malformed s q, rfl, rfl, rfl, rfl, rfl, rfl, rfl, rfl, rfl, rfl⟩,
    fun s run p hx hd hrun hc h hp => ⟨_, s.reportFrame p,
      (execTransmitStart_now (mayBegin_of hx hd hrun ?_ hc)).trans
        (congrArg Host.Outcome.next (chooseCandidate_report h hp)),
      rfl, rfl, rfl, rfl, s.reportPayload_length p, reportFrame_malformed s p _, rfl, rfl, rfl, rfl, rfl, rfl, rfl, rfl,
      rfl, rfl⟩,
    fun s run hx hd hrun hc h => ?_, fun s hp hrun hx hc => ?_, fun s h => execTransmitStart_not (mayBegin_not h),
    fun s x received hx => ?_⟩
  · obtain ⟨h, -⟩ | h := h <;> simp [h]
  · have hns : s.lpi.state ≠ .silent := by
      obtain h | ⟨h, -⟩ | ⟨h, -⟩ := h <;> simp [h]
    rw [execTransmitStart_now (mayBegin_of hx hd hrun hns hc), chooseCandidate_none]
    · rfl
    · obtain h | ⟨h, hn⟩ | ⟨h, hs, hq, hn⟩ := h
      · simp [candidate, choiceMade, h]
      · exact candidate_report_none (s := s.choiceMade) hn (.inl h)
      · exact candidate_report_none (s := s.choiceMade) hn (.inr ⟨h, hs, hq⟩)
  · obtain ⟨hi, hch⟩ := nextBit_idle s.lpi hx
    obtain ⟨hr, ht⟩ | hr := hrun
    · refine ⟨_, step_parts hp hr ht, ?_⟩
      rw [opening_lpi, opening_ltu, advanceBit_lpi, runningParts_lpi, runningParts_ltu_eq, lpiTick_chosen hx hc]
      exact ⟨hi, hch, rfl⟩
    · refine ⟨_, step_halted hp hr, ?_⟩
      rw [lpiTick_chosen hx hc]
      exact ⟨hi, hch, rfl⟩
  · intro f level last
    have hlevel : level = f.bits.getD x.bit true := ltx_sending hx received
    refine ⟨fun h => ?_, fun i hi h => ?_, fun i hi h => ?_, fun i hi h => ?_, fun j hj i hi h => ?_, fun i hi h => ?_,
      fun h => ?_⟩
    · rw [hlevel, h, f.bits_zero]
    · rw [hlevel, h, f.bits_class hi]
    · rw [hlevel, h, f.bits_source hi]
    · rw [hlevel, h, f.bits_length hi]
    · rw [hlevel, h, f.bits_payload hj hi]
    · rw [hlevel, h, f.bits_check hi]
    · obtain ⟨k, hk⟩ := Nat.exists_eq_add_of_le h
      rw [hlevel, hk, f.bits_endSlot]

/-! ### The transmit fault (R143, R144, R146) -/

theorem execTransmitFault_sending {x : Transmission} (h : s.lpi.transmission = some x) (atAcceptance : Bool) :
    exec (.transmitFault atAcceptance) s = .next (
      if (x.arbitrates && x.sent) = false ∧ x.bit ≤ acceptanceBit x.frame ∧
          atAcceptance = decide (x.bit = acceptanceBit x.frame) then
        ((((s.endAttempt.setDecoder (s.decoderAfterFault x)).returnCandidate x.candidate).setFlag .txFault).count
          .txFaults).countTransmitFault
      else s) := by
  change Host.Outcome.next _ = _
  rw [h]

theorem countTransmitFault_muting (ha : s.lpi.state = .active) (h7 : 7 ≤ s.lpi.faultCount) : s.countTransmitFault =
    { s with lpi := { s.lpi with state := .muted, faultCount := 8, acceptedRun := 0, quietCycles := 0,
                                 frameStart := false } } := by
  have hn : min Config.muteFaults (s.lpi.faultCount + 1) = 8 := Nat.min_eq_left (Nat.succ_le_succ h7)
  simp only [countTransmitFault, hn]
  exact if_pos ⟨ha, le_rfl⟩

theorem countTransmitFault_counting (h : s.lpi.state ≠ .active ∨ s.lpi.faultCount < 7) : s.countTransmitFault =
    { s with lpi := { s.lpi with faultCount := min 8 (s.lpi.faultCount + 1) } } := by
  refine if_neg fun ⟨ha, h8⟩ => ?_
  obtain h | h := h
  · exact h ha
  · simp only [Config.muteFaults] at h8
    omega

theorem countTransmitFault_lpi (s : State) : s.countTransmitFault.lpi.faultCount = min 8 (s.lpi.faultCount + 1) ∧
    s.countTransmitFault.lpi.transmission = s.lpi.transmission ∧
    s.countTransmitFault.lpi.decoder = s.lpi.decoder := by
  by_cases h : s.lpi.state ≠ .active ∨ s.lpi.faultCount < 7
  · rw [countTransmitFault_counting h]
    exact ⟨rfl, rfl, rfl⟩
  · rw [not_or, not_not, Nat.not_lt] at h
    rw [countTransmitFault_muting h.1 h.2]
    exact ⟨(Nat.min_eq_left (Nat.succ_le_succ h.2)).symm, rfl, rfl⟩

theorem returnCandidate_ltu_of_ne {c : Candidate} (h : c ≠ .beacon) : (s.returnCandidate c).ltu = s.ltu := by
  cases c with
  | beacon => exact absurd rfl h
  | mark => rfl
  | report => exact returnReport_ltu s

theorem returnCandidate_slot_of_ne {c : Candidate} (h : c ≠ .report) :
    (s.returnCandidate c).fru.reportSlot = s.fru.reportSlot ∧ (s.returnCandidate c).fru.heldPage = s.fru.heldPage := by
  cases c with
  | beacon => exact ⟨rfl, rfl⟩
  | mark => exact ⟨rfl, rfl⟩
  | report => exact absurd rfl h

/-- Settles O42: the fault at a bit that is not its arbitration's, and what goes back by the kind of candidate. -/
theorem transmitFaultCountsAndMutes : Obligations.TransmitFaultCountsAndMutes := by
  intro s x atAcceptance hx hcount
  have hsent : s.ltx none = x.sent := ltx_sending hx none
  rw [execTransmitFault_sending hx, hsent]
  refine ⟨fun h9 hs => by rw [if_neg (by simp [(arbitrates_iff x).2 h9, hs])], fun hbit hat => ?_⟩
  have harb : (x.arbitrates && x.sent) = false := by
    obtain h | h := hbit
    · have : x.arbitrates = false := by simpa [← arbitrates_iff] using Nat.not_lt.2 h
      simp [this]
    · simp [h]
  have hplace : x.bit ≤ acceptanceBit x.frame ∧ atAcceptance = decide (x.bit = acceptanceBit x.frame) := by
    unfold acceptanceBit
    obtain ⟨h, hb⟩ | ⟨h, hb⟩ := hat
    · exact ⟨by omega, by simp [h, hb]⟩
    · exact ⟨by omega, by simp [h]; omega⟩
  rw [if_pos ⟨harb, hplace⟩]
  set s0 := s.endAttempt.setDecoder (s.decoderAfterFault x) with hs0
  set s1 := s0.returnCandidate x.candidate with hs1
  have hlpi : s1.lpi = { s.lpi with transmission := none, decoder := s.decoderAfterFault x } := by
    rw [hs1]; simp [hs0, endAttempt, setDecoder]
  obtain ⟨he, hc, hm⟩ := returnCandidate_kept s0 x.candidate
  obtain ⟨hfc, htr, hdec⟩ := countTransmitFault_lpi ((s1.setFlag .txFault).count .txFaults)
  have hfru : (((s1.setFlag .txFault).count .txFaults).countTransmitFault).fru =
      ((s1.setFlag .txFault).count .txFaults).fru := countTransmitFault_fru _
  have hlpi' : ((s1.setFlag .txFault).count .txFaults).lpi = s1.lpi := rfl
  refine ⟨_, rfl, ?_, ?_, ?_, ?_, ?_, fun ha h7 => ?_, fun h => ?_, ?_, fun e => ?_, fun e => ?_, fun e => ?_,
    fun e q hq => ?_, ?_⟩
  · rw [htr, hlpi', hlpi]
  · rw [hfru]
    change s1.fru.events.raise .txFault = _
    rw [he]
    rfl
  · rw [hfru]
    change s1.fru.counters.bump 1 .txFaults = _
    rw [hc]
    rfl
  · rw [hfru]
    exact hm
  · rw [hfc, hlpi', hlpi]
  · rw [countTransmitFault_muting]
    · exact ⟨rfl, rfl, rfl, rfl⟩
    · rw [hlpi', hlpi]; exact ha
    · rw [hlpi', hlpi]; exact h7
  · rw [countTransmitFault_counting]
    · change s1.lpi.state = _ ∧ s1.lpi.acceptedRun = _ ∧ s1.lpi.quietCycles = _ ∧ s1.lpi.frameStart = _
      rw [hlpi]
      exact ⟨rfl, rfl, rfl, rfl⟩
    · rw [hlpi', hlpi]; exact h
  · rw [hdec, hlpi', hlpi, hplace.2]
    simp [decoderAfterFault]
  · simp [hs1, e, hs0, endAttempt, setDecoder, returnCandidate, mapLtu]
  · simp [hs1, hs0, returnCandidate_ltu_of_ne e, endAttempt]
  · rw [hfru]
    exact returnCandidate_slot_of_ne e
  · have hr := returnReport_sending (s := s0) hq
    rw [hfru, hs1, e]
    exact ⟨congrArg (fun u => u.fru.reportSlot) hr, congrArg (fun u => u.fru.heldPage) hr⟩
  · simp [hs1, hs0, endAttempt]

end State
end Sys2Proof.Machine
end

section
/-! The frames as their receivers read them (R136, R139, R190, R191), and the report pages field by field (R168 to
R170, R192). -/

namespace Sys2Proof

/-! ### Frames by class -/

variable {source : Address} {payload : List Byte}

theorem decodeFrame_beacon (start : StartReads) (h : payload.length = 8) : decodeFrame start (frameOf 0#3 source payload) =
    some (.beacon source (word32At payload 0) (half16At payload 4) (half16At payload 6)) := by
  rw [decodeFrame, frameOf_malformed _ _ _ 8 rfl h (by omega)]
  rfl

theorem decodeFrame_control (start : StartReads) (target : Byte) (tag : Half) (op : Byte) :
    decodeFrame start (frameOf 1#3 source (controlPayload target tag op)) =
      some (decodeControl start source target tag op) := by
  rw [decodeFrame, frameOf_malformed _ _ _ 4 rfl rfl (by omega)]
  have htag : half16At (controlPayload target tag op) 1 = tag := by simp [controlPayload]
  exact congrArg (fun x => some (decodeControl start source target x op)) htag

theorem decodeFrame_mark (start : StartReads) (h : payload.length = 6) : decodeFrame start (frameOf 2#3 source payload) =
    some (.mark source (byteAt payload 0) (byteAt payload 1) (half16At payload 2) (half16At payload 4)) := by
  rw [decodeFrame, frameOf_malformed _ _ _ 6 rfl h (by omega)]
  rfl

theorem decodeFrame_retime (start : StartReads) (h : payload.length = 7) : decodeFrame start (frameOf 3#3 source payload) =
    some (.retime source (byteAt payload 0) (half16At payload 1) (byteAt payload 3) (field24At payload 4)) := by
  rw [decodeFrame, frameOf_malformed _ _ _ 7 rfl h (by omega)]
  rfl

theorem decodeFrame_query (start : StartReads) (target page : Byte) :
    decodeFrame start (frameOf 4#3 source [target, page]) = some (.query source target page) := by
  rw [decodeFrame, frameOf_malformed _ _ _ 2 rfl rfl (by omega)]
  rfl

theorem decodeFrame_other (start : StartReads) {cls : BitVec 3} (h5 : 5 ≤ cls.toNat)
    (hm : (frameOf cls source payload).malformed = false) :
    decodeFrame start (frameOf cls source payload) = some (.report source { cls := cls, payload := payload }) := by
  rw [decodeFrame, hm]
  obtain ⟨k, hk⟩ := Nat.exists_eq_add_of_le h5
  simp [hk, show 5 + k = k + 5 by omega]

theorem classBytes_unassigned {cls : BitVec 3} (h : 6 ≤ cls.toNat) : classBytes cls = none := by
  obtain ⟨k, hk⟩ := Nat.exists_eq_add_of_le h
  simp [classBytes, hk, show 6 + k = k + 6 by omega]

/-- A report, or a frame of an unassigned class, whose payload fits. -/
theorem frameOf_malformed_of_fits {c : ReportContent} (h : c.fits = true) :
    5 ≤ c.cls.toNat ∧ (frameOf c.cls source c.payload).malformed = false := by
  simp only [ReportContent.fits, Bool.and_eq_true, decide_eq_true_eq] at h
  obtain ⟨h5, hlen⟩ := h
  refine ⟨h5, ?_⟩
  split at hlen
  · next hc =>
    rw [hc]
    exact frameOf_malformed _ _ _ 12 rfl (by simpa using hlen) (by omega)
  · next hc =>
    have h6 : c.cls.toNat ≠ 5 := fun h => hc (BitVec.eq_of_toNat_eq h)
    exact frameOf_malformed_unassigned _ _ _ (classBytes_unassigned (by omega)) (by simpa using hlen)

theorem decodeFrame_beaconPayload (start : StartReads) (cycle : Word) (phase period : Half) :
    decodeFrame start (frameOf 0#3 source (beaconPayload cycle phase period)) = some (.beacon source cycle phase period) := by
  rw [decodeFrame_beacon start rfl]
  simp [beaconPayload]

theorem decodeFrame_markPayload (start : StartReads) (channel sequence : Byte) (cycleLow phase : Half) :
    decodeFrame start (frameOf 2#3 source (markPayload channel sequence cycleLow phase)) =
      some (.mark source channel sequence cycleLow phase) := by
  rw [decodeFrame_mark start rfl]
  simp [markPayload]

theorem decodeFrame_retimePayload (start : StartReads) (target : Byte) (tag : Half) (entry : Byte) (delay : BitVec 24) :
    decodeFrame start (frameOf 3#3 source (retimePayload target tag entry delay)) =
      some (.retime source target tag entry delay) := by
  rw [decodeFrame_retime start rfl]
  have htag : half16At (retimePayload target tag entry delay) 1 = tag := by simp [retimePayload]
  have hdelay : field24At (retimePayload target tag entry delay) 4 = delay := by
    change field24At (bytes24 delay) 0 = delay
    exact field24At_bytes24 delay []
  rw [htag, hdelay]
  rfl

/-- R136, R191: the frame of a well-formed frame command stands for that command. -/
theorem decodeFrame_frameOfCommand {i : Instr} {f : WireFrame} {start : StartReads} (hi : i.wellFormed = true)
    (hf : frameOfCommand i = some f) (hs : ∀ source target tag a, i = .restart source target tag a → a = start) :
    decodeFrame start f = some i := by
  cases i with
  | beacon source cycle phase period =>
    obtain rfl := Option.some.inj hf
    exact decodeFrame_beaconPayload start cycle phase period
  | mark source channel sequence cycleLow phase =>
    obtain rfl := Option.some.inj hf
    exact decodeFrame_markPayload start channel sequence cycleLow phase
  | clearFaults source target tag =>
    obtain rfl := Option.some.inj hf
    exact decodeFrame_control start target tag _
  | purge source target tag =>
    obtain rfl := Option.some.inj hf
    exact decodeFrame_control start target tag _
  | restart source target tag a =>
    obtain rfl := Option.some.inj hf
    obtain rfl := hs source target tag a rfl
    exact decodeFrame_control a target tag _
  | unknownOperation source target tag op =>
    obtain rfl := Option.some.inj hf
    have hop : op ≠ 0x01#8 ∧ op ≠ 0x02#8 ∧ op ≠ 0x03#8 := by
      simpa [Instr.wellFormed, knownOperations] using hi
    obtain ⟨h1, h2, h3⟩ := hop
    rw [decodeFrame_control, decodeControl, if_neg h1, if_neg h2, if_neg h3]
  | retime source target tag entry delay =>
    obtain rfl := Option.some.inj hf
    exact decodeFrame_retimePayload start target tag entry delay
  | query source target page =>
    obtain rfl := Option.some.inj hf
    exact decodeFrame_query start target page
  | report source content =>
    obtain rfl := Option.some.inj hf
    obtain ⟨h5, hm⟩ := frameOf_malformed_of_fits hi
    exact decodeFrame_other start h5 hm
  | _ => exact absurd hf (by simp [frameOfCommand])

namespace Machine

namespace State

variable (s : State)

/-! ### The pages -/

/-- The unused bytes at the end of a page. -/
theorem word32At_zeros : word32At [0#8, 0#8, 0#8, 0#8] 0 = 0#32 := by decide

theorem page0_reads : word32At (s.reportPayload 0) 2 = s.now.cycle ∧
    half16At (s.reportPayload 0) 6 = BitVec.ofNat 16 s.now.phase := by
  simp [reportPayload, pageBytes, page0, countBytes]

theorem summaryByte_halted : s.summaryByte.getLsbD 7 = true ↔ s.cfl.run = .halted := by
  by_cases h1 : s.cfl.run = .halted <;> by_cases h2 : s.ltu.sync = .locked <;> simp [summaryByte, h1, h2]

theorem summaryByte_locked : s.summaryByte.getLsbD 6 = true ↔ s.ltu.sync = .locked := by
  by_cases h1 : s.cfl.run = .halted <;> by_cases h2 : s.ltu.sync = .locked <;> simp [summaryByte, h1, h2]

theorem summaryByte_unused : s.summaryByte.extractLsb' 0 6 = 0#6 := by
  by_cases h1 : s.cfl.run = .halted <;> by_cases h2 : s.ltu.sync = .locked <;> simp [summaryByte, h1, h2]

theorem page1_flags : half16At (s.reportPayload 1) 2 = s.fru.events.toHalf := by
  simp [reportPayload, pageBytes, page1]

theorem page1_mask : half16At (s.reportPayload 1) 6 = s.fru.mask ∧ word32At (s.reportPayload 1) 8 = 0#32 := by
  simp [reportPayload, pageBytes, page1, word32At_zeros]

theorem toHalf_flag {i : Nat} {f : EventFlag} (h : EventFlag.ordered[i]? = some f) (e : EventFlags) :
    e.toHalf.getLsbD i = e.has f := by
  have hi : i < 14 := by
    obtain ⟨hi, -⟩ := List.getElem?_eq_some_iff.1 h
    exact hi
  rw [getLsbD_toHalf e i (by omega), List.getD_eq_getElem?_getD, List.getElem?_map, h]
  rfl

theorem toHalf_unused (e : EventFlags) : e.toHalf.getLsbD 14 = false ∧ e.toHalf.getLsbD 15 = false :=
  ⟨getLsbD_toHalf e 14 (by omega), getLsbD_toHalf e 15 (by omega)⟩

/-- R169: the five counters of a page, two bytes each. -/
theorem counterPage_reads (a b : Byte) (c0 c1 c2 c3 c4 : CounterName) :
    let l := a :: b :: s.counterPage [c0, c1, c2, c3, c4]
    let counter := fun c => BitVec.ofNat 16 (s.fru.counters.value c)
    half16At l 2 = counter c0 ∧ half16At l 4 = counter c1 ∧ half16At l 6 = counter c2 ∧
      half16At l 8 = counter c3 ∧ half16At l 10 = counter c4 := by
  simp [counterPage, countBytes]

theorem page4_reads : half16At (s.reportPayload 4) 2 = BitVec.ofNat 16 (s.fru.counters.value .rxRejects) ∧
    half16At (s.reportPayload 4) 4 = BitVec.ofNat 16 (s.fru.counters.value .acceptedFrames) ∧
    word32At (s.reportPayload 4) 6 = s.tvu.position ∧ half16At (s.reportPayload 4) 10 = 0#16 := by
  have hunused : half16At [0#8, 0#8] 0 = 0#16 := by decide
  simp [reportPayload, pageBytes, page4, counterPage, countBytes, hunused]

theorem page5_empty (h : s.asc.time = []) : half16At (s.reportPayload 5) 7 = 0xFFFF#16 ∧
    half16At (s.reportPayload 5) 9 = 0xFFFF#16 ∧ byteAt (s.reportPayload 5) 11 = 0#8 := by
  have hd : s.headDueBytes = [0xFF#8, 0xFF#8, 0xFF#8, 0xFF#8] := by simp [headDueBytes, h]
  have h1 : half16At [0xFF#8, 0xFF#8, 0xFF#8, 0xFF#8, 0#8] 0 = 0xFFFF#16 := by decide
  have h2 : half16At [0xFF#8, 0xFF#8, 0#8] 0 = 0xFFFF#16 := by decide
  simp [reportPayload, pageBytes, page5, hd, h1, h2]

theorem page5_head {a : Action Instant} {rest : List (Action Instant)} (h : s.asc.time = a :: rest) :
    half16At (s.reportPayload 5) 7 = a.due.cycle.setWidth 16 ∧
    half16At (s.reportPayload 5) 9 = BitVec.ofNat 16 a.due.phase ∧ byteAt (s.reportPayload 5) 11 = 0#8 := by
  simp [reportPayload, pageBytes, page5, headDueBytes, h, countBytes]

theorem page6_claim (n : LineId) : byteAt (s.reportPayload 6) (2 + n.val) = s.shownClaim n := by
  fin_cases n <;> rfl

theorem page7_reads : half16At (s.reportPayload 7) 2 = s.cfl.identity ∧ half16At (s.reportPayload 7) 4 = s.cfl.checkValue ∧
    word32At (s.reportPayload 7) 8 = 0#32 := by
  simp [reportPayload, pageBytes, page7, word32At_zeros]

theorem shownClaim_cases (n : LineId) : (s.functionOf n = .drive → s.shownClaim n = BitVec.ofNat 8 (s.drive n).claim) ∧
    (s.functionOf n ≠ .drive → s.shownClaim n = 0#8) := ⟨fun h => if_pos h, fun h => if_neg h⟩

theorem page6_active (n : LineId) : (byteAt (s.reportPayload 6) 10).getLsbD n.val = true ↔
    (s.functionOf n).driven = true ∧ (s.line n).presented = some .active := by
  change (lineBits s.shownActive).getLsbD n.val = true ↔ _
  rw [getLsbD_lineBits]
  simp [shownActive]

theorem page6_mismatch (n : LineId) : (byteAt (s.reportPayload 6) 11).getLsbD n.val = true ↔
    s.functionOf n = .drive ∧ (s.line n).mismatch = true := by
  change (lineBits s.shownMismatch).getLsbD n.val = true ↔ _
  rw [getLsbD_lineBits]
  simp [shownMismatch]

theorem topFreeByte_cases : (s.asc.free = [] → s.topFreeByte = 0xFF#8) ∧
    (∀ slot rest, s.asc.free = slot :: rest → s.topFreeByte = BitVec.ofNat 8 slot.val) :=
  ⟨fun h => by simp [topFreeByte, h], fun slot rest h => by simp [topFreeByte, h, byteOf]⟩

/-- R66, R170: the last byte of page 5 is unused. -/
theorem page5_last : byteAt (s.reportPayload 5) 11 = 0#8 := by
  cases h : s.asc.time with
  | nil => exact (s.page5_empty h).2.2
  | cons a rest => exact (s.page5_head h).2.2

end State

/-- Settles O47: every frame command, the station's own frames, and the pages field by field. -/
theorem framesReadBack : Obligations.FramesReadBack := by
  refine ⟨fun i f start hi hf hs => decodeFrame_frameOfCommand hi hf hs,
    fun s q p start => ⟨decodeFrame_beaconPayload start _ _ _, decodeFrame_markPayload start _ _ _ _,
      decodeFrame_other start (by decide) (State.reportFrame_malformed s p _)⟩,
    markChannel_val, fun s => ?_⟩
  intro page half counter
  have hfirst : ∀ p : Fin 8, (byteAt (page p) 0).toNat = p.val := fun p =>
    Nat.mod_eq_of_lt (Nat.lt_of_lt_of_le p.isLt (by decide))
  refine ⟨fun p => ⟨State.reportPayload_length s p, hfirst p, s.summaryByte_halted, s.summaryByte_locked,
      s.summaryByte_unused⟩,
    ⟨s.page0_reads.1, s.page0_reads.2, fun h => ?_, fun h => ?_, fun h => ?_, fun h => ?_, fun h => ?_, fun h => ?_,
      fun h => ?_, fun a h => ?_, rfl⟩,
    ⟨fun i f h => ?_, ?_, ?_, rfl, rfl, s.page1_mask.1, s.page1_mask.2⟩,
    s.counterPage_reads _ _ _ _ _ _ _, s.counterPage_reads _ _ _ _ _ _ _, s.page4_reads,
    ⟨rfl, rfl, rfl, s.topFreeByte_cases.1, s.topFreeByte_cases.2, rfl, fun h => ?_, fun a rest h => ?_, s.page5_last⟩,
    fun n => ⟨fun h => ?_, fun h => ?_, s.page6_active n, s.page6_mismatch n⟩,
    s.page7_reads.1, s.page7_reads.2.1, rfl, rfl, s.page7_reads.2.2⟩
  · change s.ltu.sync.code = _
    rw [h]; rfl
  · change s.ltu.sync.code = _
    rw [h]; rfl
  · change s.lpi.state.code = _
    rw [h]; rfl
  · change s.lpi.state.code = _
    rw [h]; rfl
  · change s.lpi.state.code = _
    rw [h]; rfl
  · change s.lpi.state.code = _
    rw [h]; rfl
  · change (s.ltu.lastSource.map fun a => a.setWidth 8).getD 0xFF#8 = _
    rw [h]; rfl
  · change (s.ltu.lastSource.map fun a => a.setWidth 8).getD 0xFF#8 = _
    rw [h]; rfl
  · rw [show half 1 2 = s.fru.events.toHalf from s.page1_flags, State.toHalf_flag h]
  · rw [show half 1 2 = s.fru.events.toHalf from s.page1_flags]
    exact (State.toHalf_unused _).1
  · rw [show half 1 2 = s.fru.events.toHalf from s.page1_flags]
    exact (State.toHalf_unused _).2
  · exact ⟨(s.page5_empty h).1, (s.page5_empty h).2.1⟩
  · exact ⟨(s.page5_head h).1, (s.page5_head h).2.1⟩
  · exact (s.page6_claim n).trans ((s.shownClaim_cases n).1 h)
  · exact (s.page6_claim n).trans ((s.shownClaim_cases n).2 h)

end Machine
end Sys2Proof
end

section
/-! The ends of a start (R180 to R189, R193): the read that fails, the image that fails a check, and the distribution. -/

namespace Sys2Proof

open Machine

/-! ### The steps of a read (R182, R183) -/

namespace SerialMemory

variable {m : SerialMemory}

theorem lineFree_of_le (h : m.pulses ≤ 9) : m.lineFree = true := decide_eq_true h

theorem lineFree_of_gt (h : 9 < m.pulses) : m.lineFree = false := decide_eq_false (Nat.not_le.2 h)

theorem answers_of (h : m.pulses ≤ 9) (hr : m.refuses = none) : m.answers = true := by
  simp [answers, lineFree_of_le h, hr]

/-- R183: CSDA does not read high within nine pulses. -/
theorem script_of_lineHeld (h : 9 < m.pulses) :
    m.script = List.replicate 9 .recoveryPulse ++ [.stopCondition] := by
  have hmin : min m.pulses Config.recoveryPulses = 9 := Nat.min_eq_right h.le
  simp [script, answers, lineFree_of_gt h, hmin]

/-- R183: the read ends behind the acknowledgement that reads high. -/
theorem script_of_refusal (h : m.pulses ≤ 9) {a : MemoryAck} (hr : m.refuses = some a) : m.script =
    List.replicate m.pulses .recoveryPulse ++ upToRefusal (some a) addressing ++ [.stopCondition] := by
  have hmin : min m.pulses Config.recoveryPulses = m.pulses := Nat.min_eq_left h
  simp [script, answers, lineFree_of_le h, hr, hmin]

theorem failsAt_of {place : Option MemoryAck} (h : (9 < m.pulses ∧ place = none) ∨
    (m.pulses ≤ 9 ∧ m.refuses = place ∧ place ≠ none)) : m.failsAt place = true := by
  obtain ⟨h, rfl⟩ | ⟨h, hr, hp⟩ := h
  · simp [failsAt, lineFree_of_gt h]
  · obtain ⟨a, rfl⟩ := Option.ne_none_iff_exists'.1 hp
    simp [failsAt, lineFree_of_le h, hr]

end SerialMemory

namespace Machine

namespace State

variable {s : State} {k : Nat}

/-! ### The two ends of a read (R183, R184) -/

theorem readingTicks_of (hr : s.cfl.run = .configuring) (hk : s.cfl.read = .reading k) : s.readingTicks = some k := by
  simp [readingTicks, hr, hk]

theorem execMemoryNotAnswering_failing (hk : s.readingTicks = some k) {place : Option MemoryAck}
    (hf : s.cfl.memory.failsAt place = true) :
    exec (.memoryNotAnswering place) s = .next ((s.readOut k).enterHalted 1) := by
  change Host.Outcome.next _ = _
  rw [hk]
  dsimp only
  rw [if_pos hf]

/-- R182: the state at the end of an answered read, its ticks passed and its image kept. -/
def imageRead (s : State) (k : Nat) : State :=
  { s with
    lpi := { s.lpi with decoder := s.lpi.decoder.advanceBy (s.cfl.memory.readTicks - k) }
    cfl := { s.cfl with
      read := .ended, buffer := deliveredImage s.cfl.memory.bytes
      identity := half16At (deliveredImage s.cfl.memory.bytes) 4
      checkValue := half16At (deliveredImage s.cfl.memory.bytes) 6 } }

theorem endRead_readOut (ha : s.cfl.memory.answers = true) : (s.readOut k).endRead = s.imageRead k := by
  simp only [readOut, readTo, endRead, setDecoder, imageRead, receivedBytes_all ha]
  rfl

theorem execImageChecks_reading (hk : s.readingTicks = some k) (ha : s.cfl.memory.answers = true) (pins : BitVec 8) :
    exec (.imageChecks s.cfl.memory.bytes pins) s = .next (
      if Image.haltCode (deliveredImage s.cfl.memory.bytes) = 0 then
        (s.imageRead k).enterRunning (deliveredImage s.cfl.memory.bytes) pins
      else (s.imageRead k).enterHalted (Image.haltCode (deliveredImage s.cfl.memory.bytes))) := by
  change Host.Outcome.next _ = _
  rw [hk]
  dsimp only
  have hg : s.cfl.memory.gives s.cfl.memory.bytes = true := by simp [SerialMemory.gives, ha]
  rw [if_pos hg, endRead_readOut ha]
  rfl

end State

/-- Settles O5: the steps of a failing read, and the two halts. -/
theorem failedStartHalts : Obligations.FailedStartHalts := by
  refine ⟨fun m => ⟨SerialMemory.script_of_lineHeld, fun h => ?_⟩, fun s k place hr hk hf => ?_,
    fun s pins k hr hk hp href hcode => ?_⟩
  · intro pulses
    refine ⟨fun ha => ?_, fun ha => ?_, fun ha => ?_, fun ha => ?_⟩ <;>
      rw [SerialMemory.script_of_refusal h ha, List.append_assoc] <;> rfl
  · exact ⟨_, State.execMemoryNotAnswering_failing (State.readingTicks_of hr hk) (SerialMemory.failsAt_of hf), rfl, rfl,
      State.faultLine_of_halted rfl, rfl, rfl, rfl, rfl, rfl, rfl, rfl, rfl, rfl⟩
  · have hans := State.execImageChecks_reading (State.readingTicks_of hr hk) (SerialMemory.answers_of hp href) pins
    rw [if_neg hcode] at hans
    exact ⟨_, hans, rfl, rfl, State.faultLine_of_halted rfl, rfl, rfl, rfl, rfl, rfl, rfl, rfl, rfl, rfl⟩

/-! ### The layout of the image (R193) -/

namespace Image

variable {b : Byte}

theorem functionCode_cases (b : Byte) : (b.toNat = 0 → functionCode b = some .unused) ∧
    (b.toNat = 1 → functionCode b = some .sense) ∧ (b.toNat = 2 → functionCode b = some .drive) ∧
    (b.toNat = 3 → functionCode b = some .zero) ∧ (b.toNat = 4 → functionCode b = some .cycleOut) ∧
    (b.toNat = 5 → functionCode b = some .enc) := by
  refine ⟨?_, ?_, ?_, ?_, ?_, ?_⟩ <;> intro h <;> simp only [functionCode, h]

theorem edgeCode_cases (b : BitVec 2) : (b.toNat = 0 → edgeCode b = .rising) ∧ (b.toNat = 1 → edgeCode b = .falling) ∧
    (b.toNat = 2 → edgeCode b = .both) := by
  refine ⟨?_, ?_, ?_⟩ <;> intro h <;> simp only [edgeCode, h]

theorem travelMode_cases (img : List Byte) : ((byteAt img 20).toNat = 0 → travelMode img = some .none) ∧
    ((byteAt img 20).toNat = 1 → travelMode img = some .pulse) ∧
    ((byteAt img 20).toNat = 2 → travelMode img = some .quad) := by
  refine ⟨?_, ?_, ?_⟩ <;> intro h <;> simp only [travelMode, h]

theorem opCode_assert_iff (b : BitVec 2) : opCode b = .assert ↔ b.toNat = 1 := by
  unfold opCode
  split <;> simp_all

theorem opCode_release_iff (b : BitVec 2) : opCode b = .release ↔ b.toNat = 2 := by
  unfold opCode
  split <;> simp_all

theorem mapEntry_bank {img : List Byte} {a : Fin 32} {bank : Fin 8} (h : (byteAt img (88 + a.val)).toNat = bank.val) :
    mapEntry img a = some bank := by
  have hlt : (mapByte img a).toNat < 8 := by unfold mapByte; omega
  rw [mapEntry, dif_pos hlt]
  exact congrArg some (Fin.ext h)

theorem mapEntry_none {img : List Byte} {a : Fin 32} (h : (byteAt img (88 + a.val)).toNat = 255) :
    mapEntry img a = none := dif_neg (by unfold mapByte; omega)

theorem qualifierOf_absent (h : b.getLsbD 7 = false) : qualifierOf b = none := by
  rw [qualifierOf, h]
  rfl

theorem qualifierOf_present (h : b.getLsbD 7 = true) : qualifierOf b =
    some { line := index8 (b.extractLsb' 0 3), level := if b.getLsbD 6 then .active else .inactive } := by
  rw [qualifierOf, h]
  rfl

end Image

namespace State

variable (s : State) (img : List Byte) (pins : BitVec 8)

/-! ### The distribution, record by record (R188) -/

theorem enterRunning_line (n : LineId) : (s.enterRunning img pins).line n =
    lineAtEntry (Image.lineSettings img n) (pins.getLsbD n.val) (s.line n) := Table.get_ofFn _ _

theorem enterRunning_drive (n : LineId) : (s.enterRunning img pins).drive n =
    { s.drive n with limit := Image.duration img n } := Table.get_ofFn _ _

theorem enterRunning_sourceMap (a : Fin 32) : (s.enterRunning img pins).sbs.sourceMap.get a = Image.mapEntry img a :=
  Table.get_ofFn _ _

theorem enterRunning_entry (e : Fin 64) : (s.enterRunning img pins).entry e = Image.subscription img e :=
  Table.get_ofFn _ _

theorem enterRunning_template (k : Fin 16) : (s.enterRunning img pins).sbs.templates.get k = Image.template img k :=
  Table.get_ofFn _ _

end State

/-- Settles O6: the read's ticks, and the distribution of the image. -/
theorem passedImageRuns : Obligations.PassedImageRuns := by
  refine ⟨fun m hp hr => ?_, fun s pins k hr hk hp href => ?_⟩
  · have ha := SerialMemory.answers_of (m := m) (by omega) hr
    exact ⟨by rw [readTicks_of_answers ha, hp], receivedBytes_all ha⟩
  · intro image b h hcode
    have hans := State.execImageChecks_reading (State.readingTicks_of hr hk) (SerialMemory.answers_of hp href) pins
    rw [if_pos hcode] at hans
    obtain ⟨hm0, hm1, hm2⟩ := Image.travelMode_cases image
    refine ⟨_, hans, rfl, rfl, rfl, rfl, rfl, rfl, fun h0 => ?_, fun h1 => ?_, fun h2 => ?_, rfl, fun n => ?_, fun a => ?_,
      fun e => ?_, fun k => ?_, rfl⟩
    · exact congrArg (Option.getD · _) (hm0 h0)
    · exact congrArg (Option.getD · _) (hm1 h1)
    · exact congrArg (Option.getD · _) (hm2 h2)
    · rw [State.enterRunning_line, State.enterRunning_drive]
      intro o c l
      obtain ⟨hf0, hf1, hf2, hf3, hf4, hf5⟩ := Image.functionCode_cases (byteAt image o)
      obtain ⟨he0, he1, he2⟩ := Image.edgeCode_cases (c.extractLsb' 1 2)
      exact ⟨fun e => congrArg (Option.getD · _) (hf0 e), fun e => congrArg (Option.getD · _) (hf1 e),
        fun e => congrArg (Option.getD · _) (hf2 e), fun e => congrArg (Option.getD · _) (hf3 e),
        fun e => congrArg (Option.getD · _) (hf4 e), fun e => congrArg (Option.getD · _) (hf5 e),
        rfl, he0, he1, he2, rfl, rfl, rfl, rfl, rfl, rfl, rfl, rfl⟩
    · rw [State.enterRunning_sourceMap]
      exact ⟨fun bank => Image.mapEntry_bank, Image.mapEntry_none⟩
    · rw [State.enterRunning_entry]
      intro o c q
      refine ⟨rfl, rfl, Image.qualifierOf_absent, fun hq => ⟨_, Image.qualifierOf_present hq, rfl, ?_⟩⟩
      cases q.getLsbD 6 <;> simp
    · rw [State.enterRunning_template]
      refine ⟨rfl, fun j => ?_⟩
      intro o c x
      have hx : x = Image.templateStep image k j := Table.get_ofFn _ _
      rw [hx]
      exact ⟨Image.opCode_assert_iff _, Image.opCode_release_iff _, rfl, rfl⟩

end Machine
end Sys2Proof
end

section
/-! The image checks of codes 2 to 9 (R184 to R187, R25, R27, R29, R30, R105, R118), byte by byte. -/

namespace Sys2Proof.Machine

/-! ### The ordering conditions (R29) -/

/-- R29: of steps with the ops `op` (1 an ASSERT, 2 a RELEASE) and the lines `line`, line `l` stands asserted before
step `j`. -/
def AssertedBefore (op line : Nat → Nat) (j l : Nat) : Prop :=
  ∃ i < j, op i = 1 ∧ line i = l ∧ ∀ m, i < m → m < j → ¬(op m = 2 ∧ line m = l)

/-- R29: step `j` asserts a line that is not asserted, or releases one that is. -/
def StepOrdered (op line : Nat → Nat) (j : Nat) : Prop :=
  (op j = 1 ∧ ¬AssertedBefore op line j (line j)) ∨ (op j = 2 ∧ AssertedBefore op line j (line j))

theorem assertedBefore_zero (op line : Nat → Nat) (l : Nat) : ¬AssertedBefore op line 0 l :=
  fun ⟨_, hi, _⟩ => absurd hi (Nat.not_lt_zero _)

theorem assertedBefore_succ (op line : Nat → Nat) (j l : Nat) : AssertedBefore op line (j + 1) l ↔
    (op j = 1 ∧ line j = l) ∨ (AssertedBefore op line j l ∧ ¬(op j = 2 ∧ line j = l)) := by
  constructor
  · rintro ⟨i, hi, hop, hline, hnone⟩
    obtain hlt | rfl := Nat.lt_succ_iff_lt_or_eq.1 hi
    · exact .inr ⟨⟨i, hlt, hop, hline, fun m h1 h2 => hnone m h1 (Nat.lt_succ_of_lt h2)⟩,
        hnone j hlt (Nat.lt_succ_self j)⟩
    · exact .inl ⟨hop, hline⟩
  · rintro (⟨hop, hline⟩ | ⟨⟨i, hi, hop, hline, hnone⟩, hlast⟩)
    · exact ⟨j, Nat.lt_succ_self j, hop, hline, fun m h1 h2 => absurd h1 (by omega)⟩
    · refine ⟨i, Nat.lt_succ_of_lt hi, hop, hline, fun m h1 h2 => ?_⟩
      obtain hlt | rfl := Nat.lt_succ_iff_lt_or_eq.1 h2
      · exact hnone m h1 hlt
      · exact hlast

/-- R29: a template's steps have the ops `op` and the lines `line`. -/
def Template.Reads (t : Template) (op line : Nat → Nat) : Prop :=
  ∀ j : Fin 4, ((t.steps.get j).op = .assert ↔ op j.val = 1) ∧ ((t.steps.get j).op = .release ↔ op j.val = 2) ∧
    (t.steps.get j).line.val = line j.val

/-- A held set holds the lines of which `p` holds. -/
def Holds (held : HeldSet) (p : Nat → Prop) : Prop := ∀ l : LineId, held.get l = true ↔ p l.val

theorem holds_unique {a b : HeldSet} {p : Nat → Prop} (ha : Holds a p) (hb : Holds b p) : a = b :=
  Table.ext fun l => Bool.eq_iff_iff.2 ((ha l).trans (hb l).symm)

theorem exists_holds (p : Nat → Prop) : ∃ held, Holds held p := by
  classical
  exact ⟨Table.ofFn fun l => decide (p l.val), fun l => by rw [Table.get_ofFn, decide_eq_true_iff]⟩

/-- R29: one step of the ordering conditions. -/
theorem orderRun_single (x : TemplateStep) (held held' : HeldSet) : orderRun [x] held = some held' ↔
    ((x.op = .assert ∧ held.get x.line = false) ∨ (x.op = .release ∧ held.get x.line = true)) ∧
      held' = heldAfter x.op x.line held := by
  cases hop : x.op <;> cases hl : held.get x.line <;> simp [orderRun, hop, hl, heldAfter, eq_comm]

/-- R64: the lines held after a step. -/
theorem holds_heldAfter {x : TemplateStep} {op line : Nat} {held : HeldSet} {p : Nat → Prop}
    (h1 : x.op = .assert ↔ op = 1) (h2 : x.op = .release ↔ op = 2) (hl : x.line.val = line) (hp : Holds held p) :
    Holds (heldAfter x.op x.line held) fun l => (op = 1 ∧ line = l) ∨ (p l ∧ ¬(op = 2 ∧ line = l)) := by
  intro l
  have hline : l = x.line ↔ line = l.val := by rw [Fin.ext_iff, hl, eq_comm]
  change _ ↔ (op = 1 ∧ line = l.val) ∨ (p l.val ∧ ¬(op = 2 ∧ line = l.val))
  rw [heldAfter_get, ← h1, ← h2, ← hp l]
  by_cases h : l = x.line
  · rw [if_pos h]
    cases hop : x.op <;> simp [hline.1 h]
  · rw [if_neg h]
    simp [mt hline.2 h]

/-- R29: the ordering conditions over the first `j` steps: each is in order, and the lines held after them are the
lines asserted before step `j`. -/
theorem heldBefore_iff {t : Template} {op line : Nat → Nat} (ht : t.Reads op line) {j : Nat} (hj : j ≤ 4)
    (held : HeldSet) : t.heldBefore j = some held ↔
      (∀ i < j, StepOrdered op line i) ∧ Holds held (AssertedBefore op line j) := by
  induction j generalizing held with
  | zero =>
    have hno : Holds noLines (AssertedBefore op line 0) := fun l => by
      simp [assertedBefore_zero op line l.val]
    rw [Template.heldBefore_zero]
    refine ⟨fun h => ⟨fun i hi => absurd hi (Nat.not_lt_zero i), ?_⟩, fun ⟨_, h⟩ => congrArg some (holds_unique hno h)⟩
    rwa [← Option.some.inj h]
  | succ j ih =>
    have hlen : j < t.steps.items.length := by rw [t.steps.size]; exact hj
    set x := t.steps.get ⟨j, hj⟩
    have hsucc : t.heldBefore (j + 1) = (t.heldBefore j).bind (orderRun [x]) := by
      unfold Template.heldBefore
      rw [List.take_succ_eq_append_getElem hlen, orderRun_append]
      rfl
    obtain ⟨h1, h2, hl⟩ := ht ⟨j, hj⟩
    have hstep : ∀ prior : HeldSet, Holds prior (AssertedBefore op line j) → (orderRun [x] prior = some held ↔
        StepOrdered op line j ∧ Holds held (AssertedBefore op line (j + 1))) := fun prior hp => by
      have hafter := holds_heldAfter h1 h2 hl hp
      simp only [← assertedBefore_succ] at hafter
      have hx : prior.get x.line = true ↔ AssertedBefore op line j (line j) := by rw [← hl]; exact hp x.line
      rw [orderRun_single, StepOrdered, ← hx, ← h1, ← h2, Bool.not_eq_true]
      exact and_congr_right fun _ => ⟨fun e => e ▸ hafter, fun h => holds_unique h hafter⟩
    rw [hsucc, Option.bind_eq_some_iff, Nat.forall_lt_succ_right]
    constructor
    · rintro ⟨prior, hprior, hrun⟩
      obtain ⟨hord, hholds⟩ := (ih (by omega) prior).1 hprior
      obtain ⟨hlast, hheld⟩ := (hstep prior hholds).1 hrun
      exact ⟨⟨hord, hlast⟩, hheld⟩
    · rintro ⟨⟨hord, hlast⟩, hheld⟩
      obtain ⟨prior, hholds⟩ := exists_holds (AssertedBefore op line j)
      exact ⟨prior, (ih (by omega) prior).2 ⟨hord, hholds⟩, (hstep prior hholds).2 ⟨hlast, hheld⟩⟩

/-- R29: the conditions on a template's step count, ops and ordering. -/
theorem orderingHolds_iff {t : Template} {op line : Nat → Nat} (ht : t.Reads op line) : t.orderingHolds = true ↔
    1 ≤ t.count ∧ t.count ≤ 4 ∧ (∀ j < t.count, StepOrdered op line j) ∧
      ∀ l < 8, ¬AssertedBefore op line t.count l := by
  unfold Template.orderingHolds
  rw [Bool.and_eq_true, decide_eq_true_iff, beq_iff_eq, and_assoc]
  refine and_congr_right fun _ => and_congr_right fun h4 => (heldBefore_iff ht h4 noLines).trans (and_congr_right fun _ => ?_)
  refine ⟨fun h l hl => ?_, fun h l => ?_⟩
  · exact fun ha => by simpa using (h ⟨l, hl⟩).2 ha
  · simp [h l.val l.isLt]

/-- R29: every step in use names a DRIVE line. -/
theorem linesAreDrive_iff {t : Template} {op line : Nat → Nat} (ht : t.Reads op line) (h4 : t.count ≤ 4)
    (function : LineId → LineFunction) : t.linesAreDrive function = true ↔
      ∀ j < t.count, ∀ n : LineId, n.val = line j → function n = .drive := by
  unfold Template.linesAreDrive Template.stepsInUse
  rw [List.all_eq_true]
  constructor
  · intro h j hj n hn
    obtain ⟨-, -, hl⟩ := ht ⟨j, by omega⟩
    have hmem : t.steps.get ⟨j, by omega⟩ ∈ t.steps.items.take t.count :=
      List.mem_take_iff_getElem.2 ⟨j, by rw [t.steps.size]; omega, rfl⟩
    have := h _ hmem
    rw [show n = (t.steps.get ⟨j, by omega⟩).line from Fin.ext (hn.trans hl.symm)]
    simpa using this
  · intro h x hx
    obtain ⟨j, hj, rfl⟩ := List.mem_take_iff_getElem.1 hx
    rw [t.steps.size] at hj
    obtain ⟨-, -, hl⟩ := ht ⟨j, by omega⟩
    exact beq_iff_eq.2 (h j (by omega) _ hl)

namespace Image

variable {img : List Byte}

/-! ### The functions of the lines (code 6) -/

theorem functionCode_isSome (b : Byte) : (functionCode b).isSome = true ↔ b.toNat ≤ 5 := by
  unfold functionCode
  split <;> simp_all
  omega

/-- R118: each function stands for one code; an unassigned code stands for none of them. -/
theorem functionCode_iff (b : Byte) : ((functionCode b).getD .unused = .sense ↔ b.toNat = 1) ∧
    ((functionCode b).getD .unused = .drive ↔ b.toNat = 2) ∧ ((functionCode b).getD .unused = .zero ↔ b.toNat = 3) ∧
    ((functionCode b).getD .unused = .cycleOut ↔ b.toNat = 4) ∧ ((functionCode b).getD .unused = .enc ↔ b.toNat = 5) := by
  unfold functionCode
  split <;> simp_all

theorem edgeCode_unassigned (b : BitVec 2) : edgeCode b ≠ .unassigned ↔ b.toNat ≤ 2 := by
  unfold edgeCode
  split <;> simp_all
  omega

theorem travelMode_iff (h : (travelMode img).isSome = true) : ((travelMode img).getD .none = .none ↔ (byteAt img 20).toNat = 0) ∧
    ((travelMode img).getD .none = .pulse ↔ (byteAt img 20).toNat = 1) ∧
    ((travelMode img).getD .none = .quad ↔ (byteAt img 20).toNat = 2) := by
  unfold travelMode at h ⊢
  split <;> simp_all

theorem encRequired_iff (mode : TravelMode) (n : LineId) : encRequired mode n = true ↔
    (mode = .pulse ∧ n.val = 6) ∨ (mode = .quad ∧ (n.val = 6 ∨ n.val = 7)) := by
  cases mode <;> simp [encRequired, Fin.ext_iff]

/-- R187, R105, R118: items 1 to 4 of the check of code 6, once the travel mode has a code (R186). -/
theorem lineFits_iff (hmode : (travelMode img).isSome = true) (n : LineId) {code edges pulse : Nat}
    (hc : (byteAt img (24 + 8 * n.val)).toNat = code)
    (he : ((byteAt img (24 + 8 * n.val + 1)).extractLsb' 1 2).toNat = edges)
    (hpw : (half16At img (24 + 8 * n.val + 5)).toNat = pulse) : lineFits img n = true ↔
    code ≤ 5 ∧ (code = 1 ∨ code = 3 → edges ≤ 2) ∧ (code = 4 → 0 < pulse ∧ pulse < (half16At img 8).toNat) ∧
      (code = 5 ↔ ((byteAt img 20).toNat = 1 ∧ n.val = 6) ∨
        ((byteAt img 20).toNat = 2 ∧ (n.val = 6 ∨ n.val = 7))) := by
  subst hc he hpw
  obtain ⟨hsense, -, hzero, hcycle, henc⟩ := functionCode_iff (byteAt img (24 + 8 * n.val))
  obtain ⟨-, hpulse, hquad⟩ := travelMode_iff hmode
  have hf : (lineSettings img n).function = (functionCode (byteAt img (24 + 8 * n.val))).getD .unused := rfl
  have hcode : (lineFunction img n).isSome = true ↔ (byteAt img (24 + 8 * n.val)).toNat ≤ 5 := functionCode_isSome _
  have hedges : (lineSettings img n).edges ≠ .unassigned ↔
      ((byteAt img (24 + 8 * n.val + 1)).extractLsb' 1 2).toNat ≤ 2 := edgeCode_unassigned _
  have hp : (lineSettings img n).pulseWidth = (half16At img (24 + 8 * n.val + 5)).toNat := rfl
  have hperiod : (timeParams img).period = (half16At img 8).toNat := rfl
  unfold lineFits
  dsimp only
  rw [Bool.and_eq_true, Bool.and_eq_true, Bool.and_eq_true, and_assoc, and_assoc, hcode]
  refine and_congr_right fun _ => and_congr ?_ (and_congr ?_ ?_)
  · rw [Bool.or_eq_true, Bool.not_eq_true', ← Bool.not_eq_true, Bool.or_eq_true, beq_iff_eq, beq_iff_eq, bne_iff_ne,
      hedges, hf, hsense, hzero, imp_iff_not_or]
  · rw [Bool.or_eq_true, Bool.not_eq_true', ← Bool.not_eq_true, beq_iff_eq, Bool.and_eq_true, decide_eq_true_iff,
      decide_eq_true_iff, hf, hcycle, hp, hperiod, imp_iff_not_or]
  · rw [beq_iff_eq, Bool.eq_iff_iff, beq_iff_eq, encRequired_iff, hf, henc, hpulse, hquad]

/-- R187, R27: items 5 and 6 of the check of code 6. -/
theorem entryFits_iff (hmode : (travelMode img).isSome = true) (e : Fin 64) : entryFits img e = true ↔
    ((byteAt img (120 + 6 * e.val)).getLsbD 7 = true →
      ((byteAt img (120 + 6 * e.val + 4)).getLsbD 7 = true →
        (byteAt img (24 + 8 * ((byteAt img (120 + 6 * e.val + 4)).extractLsb' 0 3).toNat)).toNat = 1) ∧
      ((byteAt img (120 + 6 * e.val)).getLsbD 6 = true → (byteAt img 20).toNat ≠ 0)) := by
  obtain ⟨hnone, -, -⟩ := travelMode_iff hmode
  have hvalid : (subscription img e).valid = (byteAt img (120 + 6 * e.val)).getLsbD 7 := rfl
  have hdomain : (subscription img e).domain ≠ .travel ↔ ¬(byteAt img (120 + 6 * e.val)).getLsbD 6 = true := by
    change (if (byteAt img (120 + 6 * e.val)).getLsbD 6 then Domain.travel else .time) ≠ .travel ↔ _
    split <;> simp_all
  unfold entryFits
  dsimp only
  rw [Bool.or_eq_true, Bool.not_eq_true', ← Bool.not_eq_true, ← imp_iff_not_or, hvalid, Bool.and_eq_true,
    Bool.or_eq_true, bne_iff_ne, bne_iff_ne, hdomain, ← imp_iff_not_or, Ne, hnone]
  refine imp_congr_right fun _ => and_congr_left fun _ => ?_
  cases h7 : (byteAt img (120 + 6 * e.val + 4)).getLsbD 7
  · have hq : (subscription img e).qualifier = none := qualifierOf_absent h7
    simp [hq]
  · have hq : (subscription img e).qualifier = some _ := qualifierOf_present h7
    rw [hq]
    refine Iff.trans beq_iff_eq (((functionCode_iff _).1).trans ?_)
    simp
    rfl

/-- The steps of a template of the image. -/
theorem template_reads (img : List Byte) (k : Fin 16) : (template img k).Reads
    (fun j => ((byteAt img (504 + 16 * k.val + 4 + 3 * j)).extractLsb' 6 2).toNat)
    (fun j => ((byteAt img (504 + 16 * k.val + 4 + 3 * j)).extractLsb' 0 3).toNat) := fun j => by
  have hx : (template img k).steps.get j = templateStep img k j := Table.get_ofFn _ _
  rw [hx]
  exact ⟨opCode_assert_iff _, opCode_release_iff _, rfl⟩

/-- R187, R25: the check of code 7. -/
theorem mapFits_iff : mapFits img = true ↔ ∀ a < 32, (byteAt img (88 + a)).toNat ≤ 7 ∨ (byteAt img (88 + a)).toNat = 0xFF := by
  unfold mapFits mapByte
  rw [List.all_eq_true]
  have hbyte : ∀ b : Byte, (decide (b.toNat < 8) || b == 0xFF#8) = true ↔ b.toNat ≤ 7 ∨ b.toNat = 0xFF := fun b => by
    rw [Bool.or_eq_true, decide_eq_true_iff, beq_iff_eq, Nat.lt_succ_iff, ← BitVec.toNat_inj]
    rfl
  exact ⟨fun h a ha => (hbyte _).1 (h ⟨a, ha⟩ (List.mem_finRange _)), fun h a _ => (hbyte _).2 (h a.val a.isLt)⟩

/-- R30: template `k` is named by a valid subscription record. -/
def Names (img : List Byte) (k : Nat) : Prop :=
  ∃ e < 64, (byteAt img (120 + 6 * e)).getLsbD 7 = true ∧ ((byteAt img (120 + 6 * e)).extractLsb' 0 4).toNat = k

theorem namedTemplates_iff (p : Template → Bool) : namedTemplates img p = true ↔
    ∀ k : Fin 16, Names img k.val → p (template img k) = true := by
  unfold namedTemplates allEntries
  rw [List.all_eq_true]
  constructor
  · rintro h k ⟨e, he, hv, hk⟩
    have := h ⟨e, he⟩ (List.mem_finRange _)
    rw [Bool.or_eq_true, Bool.not_eq_true'] at this
    have hk' : (subscription img ⟨e, he⟩).template = k := Fin.ext hk
    rw [← hk']
    exact this.resolve_left (by rw [Bool.not_eq_false]; exact hv)
  · intro h e _
    rw [Bool.or_eq_true, Bool.not_eq_true', ← Bool.not_eq_true, ← imp_iff_not_or]
    exact fun hv => h _ ⟨e.val, e.isLt, hv, rfl⟩

/-- R184: of nine codes, the one of the first check that fails. -/
theorem firstFailing_iff (c2 c3 c4 c5 c6 c7 c8 c9 : Prop) [Decidable c2] [Decidable c3] [Decidable c4] [Decidable c5]
    [Decidable c6] [Decidable c7] [Decidable c8] [Decidable c9] {code : Nat} (h : code = if ¬c2 then 2 else if ¬c3 then 3
      else if ¬c4 then 4 else if ¬c5 then 5 else if ¬c6 then 6 else if ¬c7 then 7 else if ¬c8 then 8 else if ¬c9 then 9
      else 0) :
    (code = 2 ↔ ¬c2) ∧ (code = 3 ↔ c2 ∧ ¬c3) ∧ (code = 4 ↔ c2 ∧ c3 ∧ ¬c4) ∧ (code = 5 ↔ c2 ∧ c3 ∧ c4 ∧ ¬c5) ∧
    (code = 6 ↔ c2 ∧ c3 ∧ c4 ∧ c5 ∧ ¬c6) ∧ (code = 7 ↔ c2 ∧ c3 ∧ c4 ∧ c5 ∧ c6 ∧ ¬c7) ∧
    (code = 8 ↔ c2 ∧ c3 ∧ c4 ∧ c5 ∧ c6 ∧ c7 ∧ ¬c8) ∧ (code = 9 ↔ c2 ∧ c3 ∧ c4 ∧ c5 ∧ c6 ∧ c7 ∧ c8 ∧ ¬c9) ∧
    (code = 0 ↔ c2 ∧ c3 ∧ c4 ∧ c5 ∧ c6 ∧ c7 ∧ c8 ∧ c9) := by
  subst h
  split_ifs <;> simp_all

/-- R184: the model's order of the checks. -/
theorem haltCode_order (img : List Byte) : haltCode img = if ¬(half16At img 0 = 0x0A01#16) then 2
    else if ¬((half16At img 2).toNat = 760) then 3
    else if ¬(crcOf (bytesBits (img.drop 8)) = half16At img 6) then 4 else if ¬(parametersInRange img = true) then 5
    else if ¬(linesFit img = true) then 6 else if ¬(mapFits img = true) then 7
    else if ¬(namedTemplates img Template.orderingHolds = true) then 8
    else if ¬(namedTemplates img (fun t => t.linesAreDrive (functionOf img)) = true) then 9 else 0 := by
  simp only [Bool.not_eq_true]
  rfl

end Image

/-- Settles O7: each check in terms of its bytes, and the code of the first that fails. -/
theorem firstFailingCheckDecides : Obligations.FirstFailingCheckDecides := by
  intro img ok2 ok3 ok4 ok5 b function ok6 ok7 named count op line asserted ok8 ok9
  have hmode : ok5 → (Image.travelMode img).isSome = true := fun h =>
    ((Image.parametersInRange_iff.1 h).2.2.2.2)
  have e6 : ok5 → (Image.linesFit img = true ↔ ok6) := fun h5 => by
    unfold Image.linesFit Image.allEntries
    rw [Bool.and_eq_true, List.all_eq_true, List.all_eq_true]
    refine and_congr ⟨fun h n hn => ?_, fun h n _ => ?_⟩ ⟨fun h e he => ?_, fun h e _ => ?_⟩
    · exact (Image.lineFits_iff (hmode h5) ⟨n, hn⟩ rfl rfl rfl).1 (h _ (List.mem_finRange _))
    · exact (Image.lineFits_iff (hmode h5) n rfl rfl rfl).2 (h n.val n.isLt)
    · exact (Image.entryFits_iff (hmode h5) ⟨e, he⟩).1 (h _ (List.mem_finRange _))
    · exact (Image.entryFits_iff (hmode h5) e).2 (h e.val e.isLt)
  have e7 : Image.mapFits img = true ↔ ok7 := Image.mapFits_iff
  have hnamed : ∀ k, named k → k < 16 := by
    rintro k ⟨e, -, -, rfl⟩
    exact BitVec.isLt _
  have e8 : Image.namedTemplates img Template.orderingHolds = true ↔ ok8 := by
    rw [Image.namedTemplates_iff]
    exact ⟨fun h k hk => (orderingHolds_iff (Image.template_reads img ⟨k, hnamed k hk⟩)).1 (h ⟨k, hnamed k hk⟩ hk),
      fun h k hk => (orderingHolds_iff (Image.template_reads img k)).2 (h k.val hk)⟩
  have hline : ∀ k j, line k j < 8 := fun k j => BitVec.isLt _
  have hdrive : ∀ n : LineId, Image.functionOf img n = .drive ↔ function n.val = 2 := fun n =>
    (Image.functionCode_iff (byteAt img (24 + 8 * n.val))).2.1
  have e9 : ok8 → (Image.namedTemplates img (fun t => t.linesAreDrive (Image.functionOf img)) = true ↔ ok9) := fun h8 => by
    rw [Image.namedTemplates_iff]
    constructor
    · intro h k hk j hj
      have hreads := Image.template_reads img ⟨k, hnamed k hk⟩
      exact (hdrive ⟨line k j, hline k j⟩).1
        ((linesAreDrive_iff hreads (h8 k hk).2.1 _).1 (h ⟨k, hnamed k hk⟩ hk) j hj ⟨line k j, hline k j⟩ rfl)
    · intro h k hk
      refine (linesAreDrive_iff (Image.template_reads img k) (h8 k.val hk).2.1 _).2 fun j hj n hn => (hdrive n).2 ?_
      rw [hn]
      exact h k.val hk j hj
  obtain ⟨h2, h3, h4, h5, h6, h7, h8, h9, h0⟩ := Image.firstFailing_iff _ _ _ _ _ _ _ _ (Image.haltCode_order img)
  rw [e7] at h7 h8 h9 h0
  rw [e8] at h8 h9 h0
  have lift {p q : Prop} (h : ok5 → (p ↔ q)) : ok2 ∧ ok3 ∧ ok4 ∧ ok5 ∧ p ↔ ok2 ∧ ok3 ∧ ok4 ∧ ok5 ∧ q :=
    and_congr_right fun _ => and_congr_right fun _ => and_congr_right fun _ => and_congr_right h
  refine ⟨h2, h3, h4, h5, h6.trans (lift fun hp => not_congr (e6 hp)), h7.trans (lift fun hp => and_congr_left' (e6 hp)),
    h8.trans (lift fun hp => and_congr_left' (e6 hp)), h9.trans (lift fun hp => and_congr (e6 hp) ?_),
    h0.trans (lift fun hp => and_congr (e6 hp) ?_)⟩
  · exact and_congr_right fun _ => and_congr_right fun h => not_congr (e9 h)
  · exact and_congr_right fun _ => and_congr_right fun h => e9 h

end Sys2Proof.Machine
end

section
/-! The first half of a bare tick, the LTU's (R5, R6, R8, R9, R18), and the commands that their marks silence. -/

namespace Sys2Proof.Machine.State

variable {s : State} {n : LineId}

/-! ### The LTU's part by sync state -/

theorem ltuTick_listenAdvance (hs : s.ltu.sync = .listen) (hp : s.now.phase + 1 < s.period) :
    s.ltuTick = s.listenAdvance := by
  have hends : s.phaseEnds = false := decide_eq_false (Nat.not_le.2 hp)
  simp [ltuTick, hs, hends]

theorem ltuTick_wrap (hs : s.ltu.sync = .listen) (hp : s.period ≤ s.now.phase + 1)
    (hj : s.ltu.listenCount + 1 < s.joinWait) : s.ltuTick = s.wrapInListen := by
  simp [ltuTick, hs, phaseEnds_iff.2 hp, joinWaitEnds_false_iff.2 hj]

theorem ltuTick_start (hs : s.ltu.sync = .listen) (hp : s.period ≤ s.now.phase + 1)
    (hj : s.joinWait ≤ s.ltu.listenCount + 1) : s.ltuTick = s.startSelf := by
  simp [ltuTick, hs, phaseEnds_iff.2 hp, joinWaitEnds_iff.2 hj]

theorem ltuTick_hold (hs : s.ltu.sync = .locked) (hh : 0 < s.ltu.hold) : s.ltuTick = s.holdTick := by
  simp [ltuTick, hs, hh]

theorem ltuTick_advance (hs : s.ltu.sync = .locked) (hh : s.ltu.hold = 0) : s.ltuTick = s.advance := by
  simp [ltuTick, hs, hh]

theorem execListenWrap_now (hr : s.running = true) (hs : s.ltu.sync = .listen) (ht : s.ltu.ticked = false)
    (hp : s.period ≤ s.now.phase + 1) (hj : s.ltu.listenCount + 1 < s.joinWait) :
    exec .listenWrap s = .next s.markTicked.wrapInListen := by
  change Host.Outcome.next _ = _
  rw [if_pos ⟨listening_iff.2 ⟨hr, hs⟩, phaseEnds_iff.2 hp, joinWaitEnds_false_iff.2 hj, ht⟩]

theorem execHoldEnd_now (hr : s.running = true) (hs : s.ltu.sync = .locked) (ht : s.ltu.ticked = false)
    (hh : s.ltu.hold = 1) : exec .holdEnd s = .next s.markTicked.holdTick := by
  change Host.Outcome.next _ = _
  rw [if_pos ⟨locked_iff.2 ⟨hr, hs⟩, hh, ht⟩]

/-- R74, R76: a pass that finds no head due fires nothing. -/
theorem timePass_of_noHeadDue (h : s.NoTimeHeadDue) : s.timePass = s := by
  have hpass : s.timePool.pass s.timeDomain s.sbs.templates = s.timePool := by
    cases ha : s.asc.time with
    | nil => exact Pool.pass_nil _ _ _ ha
    | cons a rest => exact pass_of_not_due ha (h a rest ha)
  rw [timePass, hpass]
  rfl

/-- R8: an advance within a cycle that finds no head due. -/
theorem advancePhase_of_noHeadDue (h : ∀ a rest, s.asc.time = a :: rest →
    Instant.atOrBefore s.period a.due { s.now with phase := s.now.phase + 1 } = false) :
    s.advancePhase = s.mapLtu fun l => { l with instant := { l.instant with phase := l.instant.phase + 1 } } :=
  timePass_of_noHeadDue h

/-- R5 to R9, R18: the first half of a tick is the LTU's part, as its command where one falls. -/
theorem step_ltuHalf (hp : s.pending = []) (hr : s.running = true) (ht : s.ltu.ticked = false) :
    (s.ltu.sync = .listen → s.now.phase + 1 < s.period →
      step s = .next { s with ltu := { s.ltu with
        instant := { s.now with phase := s.now.phase + 1 }, ticked := true } }) ∧
    (s.ltu.sync = .listen → s.period ≤ s.now.phase + 1 → s.ltu.listenCount + 1 < s.joinWait →
      step s = exec .listenWrap s) ∧
    (s.ltu.sync = .listen → s.period ≤ s.now.phase + 1 → s.joinWait ≤ s.ltu.listenCount + 1 →
      step s = exec .selfStart s) ∧
    (s.ltu.sync = .locked → 1 < s.ltu.hold →
      step s = .next { s with ltu := { s.ltu with hold := s.ltu.hold - 1, ticked := true } }) ∧
    (s.ltu.sync = .locked → s.ltu.hold = 1 → step s = exec .holdEnd s) ∧
    (s.ltu.sync = .locked → s.ltu.hold = 0 → s.period ≤ s.now.phase + 1 → step s = exec .cycleExpiry s) ∧
    (s.ltu.sync = .locked → s.ltu.hold = 0 → s.now.phase + 1 < s.period →
      (∀ a rest, s.asc.time = a :: rest → Instant.atOrBefore s.period a.due s.nextInstant = true →
        step s = exec .timeHeadDue s) ∧
      ((∀ a rest, s.asc.time = a :: rest → Instant.atOrBefore s.period a.due s.nextInstant = false) →
        step s = .next { s with ltu := { s.ltu with
          instant := { s.now with phase := s.now.phase + 1 }, ticked := true } })) := by
  have hstep := step_ltuTick hp hr ht
  refine ⟨fun hs h => ?_, fun hs h hj => ?_, fun hs h hj => ?_, fun hs hh => ?_, fun hs hh => ?_, fun hs hh h => ?_,
    fun hs hh h => ⟨fun a rest ha hd => ?_, fun hnone => ?_⟩⟩
  · rw [hstep, ltuTick_listenAdvance (s := s.markTicked) hs h]
    rfl
  · rw [hstep, ltuTick_wrap (s := s.markTicked) hs h hj, execListenWrap_now hr hs ht h hj]
  · rw [hstep, ltuTick_start (s := s.markTicked) hs h hj, execSelfStart_now hr hs ht h hj]
  · rw [hstep, ltuTick_hold (s := s.markTicked) hs (Nat.zero_lt_of_lt hh)]
    rfl
  · rw [hstep, ltuTick_hold (s := s.markTicked) hs (by change 0 < s.ltu.hold; omega), execHoldEnd_now hr hs ht hh]
  · rw [hstep, ltuTick_advance (s := s.markTicked) hs hh, advance_of_le (s := s.markTicked) h,
      execCycleExpiry_now hr hs ht hh h]
  · rw [hstep, ltuTick_advance (s := s.markTicked) hs hh, execTimeHeadDue_now hr hs ht hh ha hd]
  · rw [nextInstant_of_lt h] at hnone
    rw [hstep, ltuTick_advance (s := s.markTicked) hs hh, advance_of_lt (s := s.markTicked) h,
      advancePhase_of_noHeadDue (s := s.markTicked) hnone]
    rfl

/-! ### A part is taken once in a tick -/

theorem exec_ticked (ht : s.ltu.ticked = true) : exec .listenWrap s = .next s ∧ exec .selfStart s = .next s ∧
    exec .cycleExpiry s = .next s ∧ exec .holdEnd s = .next s ∧ exec .timeHeadDue s = .next s := by
  refine ⟨?_, ?_, ?_, ?_, ?_⟩ <;> change Host.Outcome.next _ = _ <;> rw [if_neg (by simp [ht])]

theorem exec_sampled (hs : (s.line n).sampled = true) : exec (.firstSight n) s = .next s ∧
    exec (.filterReversion n) s = .next s ∧ exec (.edgeAccept n) s = .next s := by
  refine ⟨?_, ?_, ?_⟩ <;> change Host.Outcome.next _ = _
  · rw [if_neg (by simp [hs])]
  · rw [if_neg (by simp [hs])]
  · cases hr : (s.line n).record with
    | none => rfl
    | some r =>
      dsimp only
      rw [if_neg (by simp [hs])]

theorem exec_counted (hc : (s.drive n).counted = true) : exec (.onTimeExpiry n) s = .next s := by
  change Host.Outcome.next _ = _
  rw [if_neg (by simp [hc])]

theorem exec_compared (hc : (s.line n).compared = true) :
    exec (.mismatchDetected n) s = .next s ∧ exec (.readBackAgreement n) s = .next s := by
  refine ⟨?_, ?_⟩ <;> change Host.Outcome.next _ = _
  · cases hp : (s.line n).presented with
    | none => rfl
    | some level =>
      dsimp only
      rw [if_neg (by simp [hc])]
  · rw [if_neg (by simp [hc])]

/-! ### The LPI's part of a tick -/

theorem chooseCandidate_fru (s : State) : s.chooseCandidate.fru.events = s.fru.events ∧
    s.chooseCandidate.fru.counters = s.fru.counters := by
  unfold chooseCandidate beginAttempt
  split
  · exact ⟨rfl, rfl⟩
  · exact ⟨rfl, rfl⟩
  · split <;> exact ⟨rfl, rfl⟩
  · split <;> exact ⟨rfl, rfl⟩

theorem chooseCandidate_kept (s : State) : s.chooseCandidate.mku = s.mku ∧ s.chooseCandidate.lpi.state = s.lpi.state := by
  unfold chooseCandidate beginAttempt
  split
  · exact ⟨rfl, rfl⟩
  · exact ⟨rfl, rfl⟩
  · split <;> exact ⟨rfl, rfl⟩
  · split <;> exact ⟨rfl, rfl⟩

theorem reportAccepted_events (s : State) : s.reportAccepted.fru.events = s.fru.events := by
  unfold reportAccepted
  split <;> rfl

theorem acceptOwnFrame_fru (s : State) (c : Candidate) : (s.acceptOwnFrame c).fru.events = s.fru.events ∧
    (s.acceptOwnFrame c).fru.counters = s.fru.counters := by
  cases c with
  | beacon => exact ⟨rfl, rfl⟩
  | mark => exact ⟨rfl, rfl⟩
  | report => exact ⟨reportAccepted_events _, reportAccepted_counters _⟩

/-- R141, R145: the LPI's part of a tick keeps the flags, the counters and the transmit state. -/
theorem lpiTick_kept (s : State) : s.lpiTick.fru.events = s.fru.events ∧ s.lpiTick.fru.counters = s.fru.counters ∧
    s.lpiTick.lpi.state = s.lpi.state := by
  unfold lpiTick
  split
  · split
    · exact ⟨(acceptOwnFrame_fru s _).1, (acceptOwnFrame_fru s _).2, by rw [acceptOwnFrame_lpi]⟩
    · exact ⟨rfl, rfl, rfl⟩
  · split
    · exact ⟨(chooseCandidate_fru s).1, (chooseCandidate_fru s).2, (chooseCandidate_kept s).2⟩
    · exact ⟨rfl, rfl, rfl⟩

/-- R145: unless an own frame ends, the LPI's part leaves the mark-out queue. -/
theorem lpiTick_mku (h : ∀ x, s.lpi.transmission = some x → x.bit < x.frame.ticks) : s.lpiTick.mku = s.mku := by
  unfold lpiTick
  split
  · next x hx => rw [if_neg (Nat.not_le.2 (h x hx))]
  · split
    · exact (chooseCandidate_kept s).1
    · rfl

end Sys2Proof.Machine.State
end

section
/-! The second half of a bare tick (R96, R97, R121, R122, R127, R129 to R132): the lines' parts, and the opening of the
next tick. -/

namespace Sys2Proof.Machine

/-! ### What the samples leave of a line -/

/-- R121, R122: but for its level, its record, its dead time and the marks of those, `k` is the line `l`. -/
def LocalLine.SameOutput (l k : LocalLine) : Prop :=
  k.settings = l.settings ∧ k.presented = l.presented ∧ k.pulse = l.pulse ∧ k.pulseCounted = l.pulseCounted ∧
    k.compared = l.compared ∧ k.pinHeld = l.pinHeld ∧ k.mismatchTimer = l.mismatchTimer ∧ k.mismatch = l.mismatch

theorem LocalLine.SameOutput.refl (l : LocalLine) : l.SameOutput l := ⟨rfl, rfl, rfl, rfl, rfl, rfl, rfl, rfl⟩

theorem LocalLine.SameOutput.trans {l k j : LocalLine} (h1 : l.SameOutput k) (h2 : k.SameOutput j) : l.SameOutput j := by
  obtain ⟨a1, a2, a3, a4, a5, a6, a7, a8⟩ := h1
  obtain ⟨b1, b2, b3, b4, b5, b6, b7, b8⟩ := h2
  exact ⟨b1.trans a1, b2.trans a2, b3.trans a3, b4.trans a4, b5.trans a5, b6.trans a6, b7.trans a7, b8.trans a8⟩

/-- R132: one comparison of a line. -/
def LocalLine.compareStep (l : LocalLine) : LocalLine :=
  if l.compared = false ∧ l.settings.function = .drive ∧ l.presented ≠ none then
    if l.pinLevel = l.presented then { l with mismatchTimer := 0, mismatch := false }
    else if 64 ≤ l.mismatchTimer + 1 then { l with mismatchTimer := 64, mismatch := true }
    else { l with mismatchTimer := l.mismatchTimer + 1 }
  else l

/-- R132: the comparison of a line detects a mismatch. -/
def LocalLine.Detects (l : LocalLine) : Prop :=
  l.compared = false ∧ l.settings.function = .drive ∧ l.presented ≠ none ∧ l.pinLevel ≠ l.presented ∧
    64 ≤ l.mismatchTimer + 1

namespace State

variable {s t u : State} {n m : LineId}

/-- What `P` gives of the line of `s`, it gives of the line of `t`. -/
def LinesSameOutput (s t : State) : Prop := ∀ n, (s.line n).SameOutput (t.line n)

theorem LinesSameOutput.trans (h1 : s.LinesSameOutput t) (h2 : t.LinesSameOutput u) : s.LinesSameOutput u :=
  fun n => (h1 n).trans (h2 n)

theorem linesSameOutput_of_llu (h : t.llu = s.llu) : s.LinesSameOutput t := fun n => by
  rw [line_of_llu h]
  exact .refl _

theorem linesSameOutput_mapLine (s : State) (n : LineId) {f : LocalLine → LocalLine} (h : ∀ l : LocalLine, l.SameOutput (f l)) :
    s.LinesSameOutput (s.mapLine n f) := fun m => by
  rw [line_mapLine]
  split
  · subst_vars; exact h _
  · exact .refl _

theorem linesSameOutput_mapLines (s : State) {f : LocalLine → LocalLine} (h : ∀ l : LocalLine, l.SameOutput (f l)) :
    s.LinesSameOutput (s.mapLines f) := fun m => by
  rw [line_mapLines]
  exact h _

theorem linesSameOutput_foldl {f : State → LineId → State} (h : ∀ (s : State) n, s.LinesSameOutput (f s n)) (l : List LineId)
    (s : State) : s.LinesSameOutput (l.foldl f s) :=
  foldl_keeps (P := fun t => s.LinesSameOutput t) (fun t n ht => ht.trans (h t n)) l s fun _ => .refl _

theorem acceptEdge_linesSameOutput (s : State) (n : LineId) (r : FilterRecord) :
    s.LinesSameOutput (s.acceptEdge n r) := by
  have haccept : s.LinesSameOutput (s.mapLine n fun l => l.accept r.pending) :=
    linesSameOutput_mapLine s n fun _ => ⟨rfl, rfl, rfl, rfl, rfl, rfl, rfl, rfl⟩
  obtain e | e | ⟨d, -, e⟩ | ⟨i, p, -, e⟩ := s.acceptEdge_cases n r <;> rw [e]
  · exact haccept
  · exact haccept.trans fun m => by
      rw [zeroRebase, rebaseRecords, line_mapLines]
      exact ⟨rfl, rfl, rfl, rfl, rfl, rfl, rfl, rfl⟩
  · exact haccept.trans (linesSameOutput_of_llu (countChange_llu _ d))
  · exact (haccept.trans (linesSameOutput_mapLine _ n (f := LocalLine.startDeadTime)
      fun _ => ⟨rfl, rfl, rfl, rfl, rfl, rfl, rfl, rfl⟩)).trans
      (linesSameOutput_of_llu (takeCapture_llu _ _ _ _))

theorem sampleTick_linesSameOutput (s : State) (n : LineId) : s.LinesSameOutput (s.sampleTick n) := by
  unfold sampleTick sampleLine
  split
  · exact fun _ => .refl _
  · split
    · exact fun _ => .refl _
    · split
      · exact (linesSameOutput_mapLine s n (f := fun l => { l with sampled := true })
          fun _ => ⟨rfl, rfl, rfl, rfl, rfl, rfl, rfl, rfl⟩).trans
          (acceptEdge_linesSameOutput _ n _)
      · exact linesSameOutput_mapLine s n fun _ => ⟨rfl, rfl, rfl, rfl, rfl, rfl, rfl, rfl⟩

/-! ### The comparisons (R132) -/

/-- R132: a comparison changes its line alone, and raises the flag where it detects a mismatch. -/
theorem compareTick_cases (s : State) (n : LineId) :
    (s.compareTick n = s ∧ (s.line n).compareStep = s.line n ∧ ¬(s.line n).Detects) ∨
      (∃ f, s.compareTick n = s.mapLine n f ∧ f (s.line n) = (s.line n).compareStep ∧ ¬(s.line n).Detects) ∨
      ∃ f, s.compareTick n = (s.mapLine n f).setFlag .driveMismatch ∧ f (s.line n) = (s.line n).compareStep ∧
        (s.line n).Detects := by
  by_cases hc : (s.line n).compared = false ∧ (s.line n).settings.function = .drive ∧ (s.line n).presented ≠ none
  · have hstep : s.compareTick n =
        if (s.line n).pinLevel = (s.line n).presented then s.readBackAgrees n else s.readBackDiffers n := by
      obtain ⟨h1, h2, h3⟩ := hc
      rw [compareTick, if_neg (by simp [h1]), compareLine, if_pos ⟨h2, h3⟩]
    rw [hstep, LocalLine.compareStep, if_pos hc]
    by_cases hp : (s.line n).pinLevel = (s.line n).presented
    · rw [if_pos hp, if_pos hp]
      exact .inr (.inl ⟨_, rfl, rfl, fun ⟨_, _, _, h, _⟩ => h hp⟩)
    · rw [if_neg hp, if_neg hp]
      by_cases h64 : 64 ≤ (s.line n).mismatchTimer + 1
      · rw [readBackDiffers_detected n (by omega), if_pos h64]
        exact .inr (.inr ⟨_, rfl, rfl, hc.1, hc.2.1, hc.2.2, hp, h64⟩)
      · rw [readBackDiffers_early n (by omega), if_neg h64]
        exact .inr (.inl ⟨_, rfl, rfl, fun ⟨_, _, _, _, h⟩ => h64 h⟩)
  · refine .inl ⟨?_, if_neg hc, fun ⟨h1, h2, h3, _⟩ => hc ⟨h1, h2, h3⟩⟩
    rw [compareTick]
    split
    · rfl
    · next h1 => exact if_neg fun ⟨h2, h3⟩ => hc ⟨by simpa using h1, h2, h3⟩

theorem compareTick_line (s : State) (n m : LineId) : (s.compareTick n).line m =
    if m = n then (s.line n).compareStep else s.line m := by
  obtain ⟨e, hs, -⟩ | ⟨f, e, hs, -⟩ | ⟨f, e, hs, -⟩ := compareTick_cases s n
  · rw [e]
    split
    · next hm => rw [hm, hs]
    · rfl
  · rw [e, ← hs]
    exact line_mapLine s n m f
  · rw [e, ← hs]
    exact line_mapLine s n m f

theorem compareTick_fru (s : State) (n : LineId) : ((s.line n).Detects → (s.compareTick n).fru = (s.setFlag .driveMismatch).fru) ∧
    (¬(s.line n).Detects → (s.compareTick n).fru = s.fru) := by
  obtain ⟨e, -, hd⟩ | ⟨f, e, -, hd⟩ | ⟨f, e, -, hd⟩ := compareTick_cases s n <;> rw [e]
  · exact ⟨fun h => absurd h hd, fun _ => rfl⟩
  · exact ⟨fun h => absurd h hd, fun _ => rfl⟩
  · exact ⟨fun _ => rfl, fun h => absurd hd h⟩

/-- A part that changes its own line alone, taken line by line. -/
theorem foldl_line {f : State → LineId → State} {g : LocalLine → LocalLine}
    (h : ∀ s n m, (f s n).line m = if m = n then g (s.line n) else s.line m) {l : List LineId} (hl : l.Nodup) (s : State)
    (m : LineId) : (l.foldl f s).line m = if m ∈ l then g (s.line m) else s.line m := by
  induction l generalizing s with
  | nil => rfl
  | cons a l ih =>
    obtain ⟨ha, hl⟩ := List.nodup_cons.1 hl
    rw [List.foldl_cons, ih hl, h]
    by_cases hm : m = a
    · subst hm
      simp [ha]
    · simp [hm]

theorem mem_allLines (n : LineId) : n ∈ allLines := by revert n; decide

theorem nodup_allLines : allLines.Nodup := by decide

theorem compareTicks_line (s : State) (n : LineId) : (allLines.foldl compareTick s).line n = (s.line n).compareStep := by
  rw [foldl_line compareTick_line nodup_allLines, if_pos (mem_allLines n)]

/-- R132: the comparisons of a tick raise the flag of a mismatch where one of them detects it, and touch nothing else
of the FRU. -/
theorem compareTicks_fru {l : List LineId} (hl : l.Nodup) (s : State) :
    (l.foldl compareTick s).fru = { s.fru with events := { s.fru.events with
      driveMismatch := (l.foldl compareTick s).fru.events.driveMismatch } } ∧
    ((l.foldl compareTick s).fru.events.driveMismatch = true ↔
      s.fru.events.driveMismatch = true ∨ ∃ n ∈ l, (s.line n).Detects) := by
  induction l generalizing s with
  | nil => simp
  | cons a l ih =>
    obtain ⟨ha, hl⟩ := List.nodup_cons.1 hl
    obtain ⟨h1, h2⟩ := ih hl (s.compareTick a)
    have hline : ∀ n ∈ l, (s.compareTick a).line n = s.line n := fun n hn => by
      rw [compareTick_line, if_neg fun e : n = a => ha (e ▸ hn)]
    have hex : (∃ n ∈ l, ((s.compareTick a).line n).Detects) ↔ ∃ n ∈ l, (s.line n).Detects :=
      exists_congr fun n => and_congr_right fun hn => by rw [hline n hn]
    rw [hex] at h2
    rw [List.foldl_cons]
    by_cases hd : (s.line a).Detects
    · rw [(compareTick_fru s a).1 hd] at h1 h2
      refine ⟨h1, h2.trans ⟨fun _ => .inr ⟨a, List.mem_cons_self, hd⟩, fun _ => .inl rfl⟩⟩
    · rw [(compareTick_fru s a).2 hd] at h1 h2
      refine ⟨h1, h2.trans (or_congr_right ?_)⟩
      simp [hd]

end State
end Sys2Proof.Machine
end

section
/-! The bare tick of a RUNNING station as a whole (R96, R97, R121, R127, R129 to R132), and the other run states'. -/

namespace Sys2Proof.Machine

/-! ### One line through a tick -/

namespace LocalLine

variable {l k : LocalLine}

theorem pinLevel_eq_iff {level : Level} (hp : l.presented = some level) :
    l.pinLevel = l.presented ↔ l.pinHeld = none ∨ l.pinHeld = some level := by
  cases hh : l.pinHeld with
  | none => simp [pinLevel, hh]
  | some h => simp [pinLevel, hh, hp]

theorem pinLevel_ne_iff {level : Level} (hp : l.presented = some level) :
    l.pinLevel ≠ l.presented ↔ l.pinHeld = some level.other := by
  rw [Ne, pinLevel_eq_iff hp]
  cases l.pinHeld with
  | none => simp
  | some h => cases h <;> cases level <;> simp [Level.other]

theorem detects_iff (l : LocalLine) : l.Detects ↔ ∃ level, l.compared = false ∧ l.settings.function = .drive ∧
    l.presented = some level ∧ l.pinHeld = some level.other ∧ 63 ≤ l.mismatchTimer := by
  constructor
  · rintro ⟨h1, h2, h3, h4, h5⟩
    obtain ⟨level, hl⟩ := Option.ne_none_iff_exists'.1 h3
    exact ⟨level, h1, h2, hl, (pinLevel_ne_iff hl).1 h4, by omega⟩
  · rintro ⟨level, h1, h2, hl, h4, h5⟩
    exact ⟨h1, h2, by simp [hl], (pinLevel_ne_iff hl).2 h4, by omega⟩

theorem compareStep_kept (l : LocalLine) : l.compareStep.settings = l.settings ∧ l.compareStep.filtered = l.filtered ∧
    l.compareStep.record = l.record ∧ l.compareStep.deadTime = l.deadTime ∧ l.compareStep.pinHeld = l.pinHeld ∧
    l.compareStep.pulse = l.pulse := by
  unfold compareStep
  split_ifs <;> exact ⟨rfl, rfl, rfl, rfl, rfl, rfl⟩

theorem compareStep_idle (h : l.compared = true ∨ l.settings.function ≠ .drive ∨ l.presented = none) :
    l.compareStep = l := if_neg fun ⟨h1, h2, h3⟩ => by
  obtain h | h | h := h
  · simp [h] at h1
  · exact h h2
  · exact h3 h

theorem compareStep_agrees {level : Level} (hc : l.compared = false) (hf : l.settings.function = .drive)
    (hp : l.presented = some level) (h : l.pinHeld = none ∨ l.pinHeld = some level) :
    l.compareStep = { l with mismatchTimer := 0, mismatch := false } := by
  rw [compareStep, if_pos ⟨hc, hf, by simp [hp]⟩, if_pos ((pinLevel_eq_iff hp).2 h)]

theorem compareStep_early {level : Level} (hc : l.compared = false) (hf : l.settings.function = .drive)
    (hp : l.presented = some level) (h : l.pinHeld = some level.other) (ht : l.mismatchTimer < 63) :
    l.compareStep = { l with mismatchTimer := l.mismatchTimer + 1 } := by
  rw [compareStep, if_pos ⟨hc, hf, by simp [hp]⟩, if_neg ((pinLevel_ne_iff hp).2 h), if_neg (by omega)]

theorem compareStep_detected {level : Level} (hc : l.compared = false) (hf : l.settings.function = .drive)
    (hp : l.presented = some level) (h : l.pinHeld = some level.other) (ht : 63 ≤ l.mismatchTimer) :
    l.compareStep = { l with mismatchTimer := 64, mismatch := true } := by
  rw [compareStep, if_pos ⟨hc, hf, by simp [hp]⟩, if_neg ((pinLevel_ne_iff hp).2 h), if_pos (by omega)]

/-- R132: what a comparison looks at. -/
theorem compareStep_congr (h1 : k.compared = l.compared) (h2 : k.settings = l.settings) (h3 : k.presented = l.presented)
    (h4 : k.pinHeld = l.pinHeld) (h5 : k.mismatchTimer = l.mismatchTimer) (h6 : k.mismatch = l.mismatch) :
    k.compareStep.mismatchTimer = l.compareStep.mismatchTimer ∧ k.compareStep.mismatch = l.compareStep.mismatch ∧
      (k.Detects ↔ l.Detects) := by
  have hpin : k.pinLevel = l.pinLevel := by simp only [pinLevel, h3, h4]
  refine ⟨?_, ?_, ?_⟩
  · unfold compareStep
    rw [h1, h2, h3, h5, hpin]
    split_ifs <;> simp [h5]
  · unfold compareStep
    rw [h1, h2, h3, h5, hpin]
    split_ifs <;> simp [h6]
  · unfold Detects
    rw [h1, h2, h3, h5, hpin]

theorem refresh_kept (l : LocalLine) (demand : Level) : (l.refresh demand).settings = l.settings ∧
    (l.refresh demand).filtered = l.filtered ∧ (l.refresh demand).record = l.record ∧
    (l.refresh demand).deadTime = l.deadTime ∧ (l.refresh demand).pinHeld = l.pinHeld ∧
    (l.refresh demand).pulse = l.pulse ∧ (l.refresh demand).mismatchTimer = l.mismatchTimer ∧
    (l.refresh demand).mismatch = l.mismatch := by
  unfold refresh
  split <;> exact ⟨rfl, rfl, rfl, rfl, rfl, rfl, rfl, rfl⟩

/-- R129, R130, R131: what a refresh presents. -/
theorem refresh_presented (l : LocalLine) (demand : Level) :
    (l.settings.function = .drive → (l.refresh demand).presented = some demand) ∧
    (l.settings.function = .cycleOut →
      (l.refresh demand).presented = some (if 0 < l.pulse then .active else .inactive)) ∧
    (l.settings.function.driven = false → (l.refresh demand).presented = none) := by
  cases hf : l.settings.function <;> simp [refresh, hf, LineFunction.driven]

/-- A line whose marks have been cleared for a new tick. -/
theorem unmarked_kept {z y : LocalLine}
    (h : z = { y with sampled := false, deadCounted := false, pulseCounted := false, compared := false }) :
    z.settings = y.settings ∧ z.filtered = y.filtered ∧ z.record = y.record ∧ z.deadTime = y.deadTime ∧
      z.pinHeld = y.pinHeld ∧ z.pulse = y.pulse ∧ z.mismatchTimer = y.mismatchTimer ∧ z.mismatch = y.mismatch ∧
      z.presented = y.presented ∧ z.sampled = false ∧ z.deadCounted = false ∧ z.pulseCounted = false ∧
      z.compared = false := by
  subst h
  exact ⟨rfl, rfl, rfl, rfl, rfl, rfl, rfl, rfl, rfl, rfl, rfl, rfl, rfl⟩

end LocalLine

/-! ### A tick in which nothing runs out -/

/-- R96: a countdown that does not run out in this tick. -/
def DriveLine.countTick (d : DriveLine) : DriveLine :=
  if d.counted then d else { d with countdown := d.countdown.map (· - 1) }

/-- R122: a record that does not run out in this tick. -/
def LocalLine.sampleStep (l : LocalLine) : LocalLine :=
  if l.sampled then l
  else { l with record := l.record.map fun r => { r with remaining := r.remaining - 1 } }

theorem DriveLine.demand_uncounted (d : DriveLine) : { d with counted := false }.demand = d.demand := rfl

theorem DriveLine.countTick_none {d : DriveLine} (h : d.countdown = none) : d.countTick = d := by
  obtain ⟨claim, limit, countdown, counted⟩ := d
  subst h
  exact ite_self _

theorem LocalLine.sampleStep_none {l : LocalLine} (h : l.record = none) : l.sampleStep = l := by
  cases l
  subst h
  exact ite_self _

theorem Table.modify_same {α : Type} {k : Nat} {t : Table α k} {i : Fin k} {f : α → α} (h : f (t.get i) = t.get i) :
    t.modify i f = t := Table.ext fun j => by
  rw [Table.get_modify]
  split
  · next hj => rw [hj, h]
  · rfl

namespace State

variable {s : State} {n : LineId}

theorem mapDrive_same {f : DriveLine → DriveLine} (h : f (s.drive n) = s.drive n) : s.mapDrive n f = s := by
  unfold mapDrive
  rw [Table.modify_same h]

theorem mapLine_same {f : LocalLine → LocalLine} (h : f (s.line n) = s.line n) : s.mapLine n f = s := by
  unfold mapLine
  rw [Table.modify_same h]

theorem countdownTick_quiet (h : (s.drive n).counted = false → ∀ r, (s.drive n).countdown = some r → 1 < r) :
    s.countdownTick n = s.mapDrive n DriveLine.countTick := by
  cases hc : (s.drive n).counted with
  | true =>
    rw [mapDrive_same (by simp [DriveLine.countTick, hc])]
    simp [countdownTick, hc]
  | false =>
    cases hd : (s.drive n).countdown with
    | none =>
      rw [mapDrive_same (DriveLine.countTick_none hd)]
      simp [countdownTick, hc, hd]
    | some r =>
      have hr := h hc r hd
      have hstep : (fun d : DriveLine => { d with countdown := some (r - 1) }) (s.drive n) = (s.drive n).countTick := by
        simp [DriveLine.countTick, hc, hd]
      simp only [countdownTick, hc, hd, if_neg (Nat.not_le.2 hr)]
      unfold mapDrive Table.modify
      unfold drive at hstep
      rw [← hstep]
      rfl

theorem sampleTick_quiet (h : ∀ r, (s.line n).sampled = false → (s.line n).record = some r → 1 < r.remaining) :
    s.sampleTick n = s.mapLine n LocalLine.sampleStep := by
  cases hc : (s.line n).sampled with
  | true =>
    rw [mapLine_same (by simp [LocalLine.sampleStep, hc])]
    simp [sampleTick, hc]
  | false =>
    cases hd : (s.line n).record with
    | none =>
      rw [mapLine_same (LocalLine.sampleStep_none hd)]
      simp [sampleTick, sampleLine, hc, hd]
    | some r =>
      have hr := h r hc hd
      have hstep : (fun l : LocalLine => { l with record := some { r with remaining := r.remaining - 1 } }) (s.line n) =
          (s.line n).sampleStep := by simp [LocalLine.sampleStep, hc, hd]
      simp only [sampleTick, sampleLine, hc, hd, if_neg (Nat.not_le.2 hr)]
      unfold mapLine Table.modify
      unfold line at hstep
      rw [← hstep]
      rfl

/-- R96: a tick's countdowns where none runs out. -/
theorem countdownTicks_quiet {l : List LineId} (hl : l.Nodup) (s : State)
    (h : ∀ n ∈ l, (s.drive n).counted = false → ∀ r, (s.drive n).countdown = some r → 1 < r) :
    l.foldl countdownTick s = { s with dcu := (l.foldl countdownTick s).dcu } ∧
      ∀ m, (l.foldl countdownTick s).drive m = if m ∈ l then (s.drive m).countTick else s.drive m := by
  induction l generalizing s with
  | nil => exact ⟨rfl, fun _ => rfl⟩
  | cons a l ih =>
    obtain ⟨ha, hl⟩ := List.nodup_cons.1 hl
    have hother : ∀ n ∈ l, (s.mapDrive a DriveLine.countTick).drive n = s.drive n := fun n hn =>
      drive_mapDrive_ne _ _ fun e : n = a => ha (e ▸ hn)
    rw [List.foldl_cons, countdownTick_quiet (h a List.mem_cons_self)]
    obtain ⟨h1, h2⟩ := ih hl (s.mapDrive a DriveLine.countTick) fun n hn => by
      rw [hother n hn]; exact h n (List.mem_cons_of_mem _ hn)
    refine ⟨h1, fun m => ?_⟩
    rw [h2, drive_mapDrive]
    by_cases hm : m = a
    · subst hm; simp [ha]
    · simp [hm]

/-- R122: a tick's samples where no record runs out. -/
theorem sampleTicks_quiet {l : List LineId} (hl : l.Nodup) (s : State)
    (h : ∀ n ∈ l, ∀ r, (s.line n).sampled = false → (s.line n).record = some r → 1 < r.remaining) :
    l.foldl sampleTick s = { s with llu := (l.foldl sampleTick s).llu } ∧
      ∀ m, (l.foldl sampleTick s).line m = if m ∈ l then (s.line m).sampleStep else s.line m := by
  induction l generalizing s with
  | nil => exact ⟨rfl, fun _ => rfl⟩
  | cons a l ih =>
    obtain ⟨ha, hl⟩ := List.nodup_cons.1 hl
    have hother : ∀ n ∈ l, (s.mapLine a LocalLine.sampleStep).line n = s.line n := fun n hn =>
      line_mapLine_ne _ _ fun e : n = a => ha (e ▸ hn)
    rw [List.foldl_cons, sampleTick_quiet (h a List.mem_cons_self)]
    obtain ⟨h1, h2⟩ := ih hl (s.mapLine a LocalLine.sampleStep) fun n hn => by
      rw [hother n hn]; exact h n (List.mem_cons_of_mem _ hn)
    refine ⟨h1, fun m => ?_⟩
    rw [h2, line_mapLine]
    by_cases hm : m = a
    · subst hm; simp [ha]
    · simp [hm]

/-! ### The second half of a tick, part by part -/

/-- The state behind the countdowns of a tick. -/
def countdownsDone (s : State) : State := allLines.foldl countdownTick s.lpiTick

/-- The state behind the samples of a tick. -/
def samplesDone (s : State) : State := allLines.foldl sampleTick (s.countdownsDone.mapLines deadTimeTick)

/-- The state with the next tick opened. -/
def partsDone (s : State) : State := s.runningParts.refreshLines.clearMarks.advanceBit

theorem runningParts_eq (s : State) : s.runningParts = allLines.foldl compareTick (s.samplesDone.mapLines pulseTick) := rfl

theorem samplesDone_sameOutput (s : State) : s.LinesSameOutput s.samplesDone := by
  have hcount : s.LinesSameOutput s.countdownsDone := linesSameOutput_of_llu <|
    (foldl_block State.llu (f := countdownTick) (by simp) allLines s.lpiTick).trans (lpiTick_llu s)
  have hdead : s.countdownsDone.LinesSameOutput (s.countdownsDone.mapLines deadTimeTick) :=
    linesSameOutput_mapLines _ fun l => by
      unfold deadTimeTick
      split
      · exact .refl l
      · exact ⟨rfl, rfl, rfl, rfl, rfl, rfl, rfl, rfl⟩
  exact (hcount.trans hdead).trans (linesSameOutput_foldl sampleTick_linesSameOutput _ _)

theorem runningParts_line (s : State) (n : LineId) :
    s.runningParts.line n = (pulseTick (s.samplesDone.line n)).compareStep := by
  rw [runningParts_eq, compareTicks_line, line_mapLines]

theorem pulseTick_kept (l : LocalLine) : (pulseTick l).settings = l.settings ∧ (pulseTick l).presented = l.presented ∧
    (pulseTick l).compared = l.compared ∧ (pulseTick l).pinHeld = l.pinHeld ∧
    (pulseTick l).mismatchTimer = l.mismatchTimer ∧ (pulseTick l).mismatch = l.mismatch ∧
    (pulseTick l).filtered = l.filtered ∧ (pulseTick l).record = l.record ∧ (pulseTick l).deadTime = l.deadTime := by
  unfold pulseTick
  split <;> exact ⟨rfl, rfl, rfl, rfl, rfl, rfl, rfl, rfl, rfl⟩

theorem pulseTick_pulse {l k : LocalLine} (hp : k.pulse = l.pulse) (hc : k.pulseCounted = l.pulseCounted) :
    (pulseTick k).pulse = if l.pulseCounted then l.pulse else l.pulse - 1 := by
  rw [← hp, ← hc]
  unfold pulseTick
  split <;> rfl

/-- R132: a line's comparison in a tick is that of the line as it stood before the tick. -/
theorem compareStep_samplesDone (s : State) (n : LineId) :
    (s.runningParts.line n).mismatchTimer = (s.line n).compareStep.mismatchTimer ∧
      (s.runningParts.line n).mismatch = (s.line n).compareStep.mismatch ∧
      ((pulseTick (s.samplesDone.line n)).Detects ↔ (s.line n).Detects) := by
  obtain ⟨a1, a2, -, -, a5, a6, a7, a8⟩ := samplesDone_sameOutput s n
  obtain ⟨b1, b2, b3, b4, b5, b6, -⟩ := pulseTick_kept (s.samplesDone.line n)
  rw [runningParts_line]
  exact LocalLine.compareStep_congr (b3.trans a5) (b1.trans a1) (b2.trans a2) (b4.trans a6) (b5.trans a7) (b6.trans a8)

theorem partsDone_line_eq (s : State) (n : LineId) : s.partsDone.line n =
    { (s.runningParts.line n).refresh (s.runningParts.drive n).demand with
      sampled := false, deadCounted := false, pulseCounted := false, compared := false } := opening_line _ n

/-- The line of a tick's end, but for the refreshed level. -/
theorem partsDone_line (s : State) (n : LineId) : (s.partsDone.line n).settings = (s.line n).settings ∧
    (s.partsDone.line n).filtered = (s.samplesDone.line n).filtered ∧
    (s.partsDone.line n).record = (s.samplesDone.line n).record ∧
    (s.partsDone.line n).deadTime = (s.samplesDone.line n).deadTime ∧
    (s.partsDone.line n).pinHeld = (s.line n).pinHeld ∧
    (s.partsDone.line n).pulse = (if (s.line n).pulseCounted then (s.line n).pulse else (s.line n).pulse - 1) ∧
    (s.partsDone.line n).mismatchTimer = (s.line n).compareStep.mismatchTimer ∧
    (s.partsDone.line n).mismatch = (s.line n).compareStep.mismatch := by
  obtain ⟨a1, -, a3, a4, -, a6, -, -⟩ := samplesDone_sameOutput s n
  obtain ⟨b1, -, -, b4, -, -, b7, b8, b9⟩ := pulseTick_kept (s.samplesDone.line n)
  have hpulse := pulseTick_pulse a3 a4
  obtain ⟨c1, c2, c3, c4, c5, c6⟩ := LocalLine.compareStep_kept (pulseTick (s.samplesDone.line n))
  obtain ⟨m1, m2, -⟩ := compareStep_samplesDone s n
  rw [← runningParts_line] at c1 c2 c3 c4 c5 c6
  obtain ⟨d1, d2, d3, d4, d5, d6, d7, d8⟩ :=
    LocalLine.refresh_kept (s.runningParts.line n) (s.runningParts.drive n).demand
  obtain ⟨e1, e2, e3, e4, e5, e6, e7, e8, -⟩ := LocalLine.unmarked_kept (partsDone_line_eq s n)
  exact ⟨e1.trans (d1.trans (c1.trans (b1.trans a1))), e2.trans (d2.trans (c2.trans b7)),
    e3.trans (d3.trans (c3.trans b8)), e4.trans (d4.trans (c4.trans b9)), e5.trans (d5.trans (c5.trans (b4.trans a6))),
    e6.trans (d6.trans (c6.trans hpulse)), e7.trans (d7.trans m1), e8.trans (d8.trans m2)⟩

theorem runningParts_dcu (s : State) : s.runningParts.dcu = s.samplesDone.dcu :=
  (foldl_block State.dcu (f := compareTick) (by simp) allLines (s.samplesDone.mapLines pulseTick)).trans
    (mapLines_dcu _ _)

theorem partsDone_drive (s : State) (n : LineId) : s.partsDone.drive n = { s.samplesDone.drive n with counted := false } :=
  (opening_drive s.runningParts n).trans
    (congrArg (fun d : Dcu => { d.lines.get n with counted := false }) (runningParts_dcu s))

theorem partsDone_presented (s : State) (n : LineId) :
    (s.functionOf n = .drive → (s.partsDone.line n).presented = some (s.partsDone.drive n).demand) ∧
    (s.functionOf n = .cycleOut →
      (s.partsDone.line n).presented = some (if 0 < (s.partsDone.line n).pulse then .active else .inactive)) ∧
    ((s.functionOf n).driven = false → (s.partsDone.line n).presented = none ∧ s.partsDone.outputPin n = none) := by
  obtain ⟨h1, h2, h3⟩ := LocalLine.refresh_presented (s.runningParts.line n) (s.runningParts.drive n).demand
  obtain ⟨e1, -, -, -, -, e6, -, -, hline, -⟩ := LocalLine.unmarked_kept (partsDone_line_eq s n)
  obtain ⟨k1, -, -, -, -, k6, -, -⟩ := LocalLine.refresh_kept (s.runningParts.line n) (s.runningParts.drive n).demand
  have hset : (s.runningParts.line n).settings = (s.line n).settings :=
    k1.symm.trans (e1.symm.trans (partsDone_line s n).1)
  have hpulse : (s.partsDone.line n).pulse = (s.runningParts.line n).pulse := e6.trans k6
  have hdemand : (s.partsDone.drive n).demand = (s.runningParts.drive n).demand :=
    (congrArg DriveLine.demand (opening_drive s.runningParts n)).trans (DriveLine.demand_uncounted _)
  rw [hset] at h1 h2 h3
  refine ⟨fun h => ?_, fun h => ?_, fun h => ?_⟩
  · exact hline.trans ((h1 h).trans (congrArg some hdemand.symm))
  · exact hline.trans ((h2 h).trans (congrArg (fun p => some (if 0 < p then Level.active else .inactive)) hpulse.symm))
  · have hnone : (s.partsDone.line n).presented = none := hline.trans (h3 h)
    exact ⟨hnone, by simp [outputPin, hnone]⟩

theorem outputPin_of_presented {level : Level} (h : (s.line n).presented = some level) :
    ((s.line n).settings.polarity = .activeHigh → s.outputPin n = some (decide (level = .active))) ∧
      ((s.line n).settings.polarity = .activeLow → s.outputPin n = some (decide (level = .inactive))) := by
  constructor <;> intro hp <;> rw [outputPin, h, hp] <;> rfl

/-- R132: the FRU behind the comparisons of a tick. -/
theorem comparisons_fru (u : State) {f : Fru} (h : f = (allLines.foldl compareTick (u.mapLines pulseTick)).fru) :
    f = { u.fru with events := { u.fru.events with driveMismatch := f.events.driveMismatch } } ∧
      (f.events.driveMismatch = true ↔ u.fru.events.driveMismatch = true ∨ ∃ n, (pulseTick (u.line n)).Detects) := by
  obtain ⟨h1, h2⟩ := compareTicks_fru nodup_allLines (u.mapLines pulseTick)
  rw [← h] at h1 h2
  refine ⟨h1, h2.trans (or_congr_right (exists_congr fun n => ?_))⟩
  rw [line_mapLines]
  exact and_iff_right (mem_allLines n)

/-- R132: the flag of a mismatch behind a tick. -/
theorem partsDone_fru (s : State) : s.partsDone.fru = { s.samplesDone.fru with events := { s.samplesDone.fru.events with
      driveMismatch := s.partsDone.fru.events.driveMismatch } } ∧
    (s.partsDone.fru.events.driveMismatch = true ↔ s.samplesDone.fru.events.driveMismatch = true ∨
      ∃ n level, (s.line n).compared = false ∧ s.functionOf n = .drive ∧ (s.line n).presented = some level ∧
        (s.line n).pinHeld = some level.other ∧ 63 ≤ (s.line n).mismatchTimer) := by
  have hopen : s.partsDone.fru = s.runningParts.fru := opening_fru s.runningParts
  have hparts : s.runningParts.fru = (allLines.foldl compareTick (s.samplesDone.mapLines pulseTick)).fru := by
    rw [runningParts_eq]
  obtain ⟨h1, h2⟩ := comparisons_fru s.samplesDone (hopen.trans hparts)
  exact ⟨h1, h2.trans (or_congr_right (exists_congr fun n =>
    ((compareStep_samplesDone s n).2.2).trans (LocalLine.detects_iff _)))⟩

/-- R132: what a tick's comparison leaves of the read-back of a line. -/
theorem partsDone_readBack (s : State) (n : LineId) :
    ((s.line n).compared = true ∨ s.functionOf n ≠ .drive ∨ (s.line n).presented = none →
      (s.partsDone.line n).mismatchTimer = (s.line n).mismatchTimer ∧
        (s.partsDone.line n).mismatch = (s.line n).mismatch) ∧
    (∀ level, (s.line n).compared = false → s.functionOf n = .drive → (s.line n).presented = some level →
      ((s.line n).pinHeld = none ∨ (s.line n).pinHeld = some level →
        (s.partsDone.line n).mismatchTimer = 0 ∧ (s.partsDone.line n).mismatch = false) ∧
      ((s.line n).pinHeld = some level.other → (s.line n).mismatchTimer < 63 →
        (s.partsDone.line n).mismatchTimer = (s.line n).mismatchTimer + 1 ∧
          (s.partsDone.line n).mismatch = (s.line n).mismatch) ∧
      ((s.line n).pinHeld = some level.other → 63 ≤ (s.line n).mismatchTimer →
        (s.partsDone.line n).mismatchTimer = 64 ∧ (s.partsDone.line n).mismatch = true ∧
          s.partsDone.fru.events.driveMismatch = true)) := by
  obtain ⟨-, -, -, -, -, -, htimer, hmark⟩ := partsDone_line s n
  refine ⟨fun h => ?_, fun level hc hf hp => ⟨fun h => ?_, fun h ht => ?_, fun h ht => ?_⟩⟩
  · have e := LocalLine.compareStep_idle h
    exact ⟨htimer.trans (congrArg LocalLine.mismatchTimer e :), hmark.trans (congrArg LocalLine.mismatch e :)⟩
  · have e := LocalLine.compareStep_agrees hc hf hp h
    exact ⟨htimer.trans (congrArg LocalLine.mismatchTimer e :), hmark.trans (congrArg LocalLine.mismatch e :)⟩
  · have e := LocalLine.compareStep_early hc hf hp h ht
    exact ⟨htimer.trans (congrArg LocalLine.mismatchTimer e :), hmark.trans (congrArg LocalLine.mismatch e :)⟩
  · have e := LocalLine.compareStep_detected hc hf hp h ht
    exact ⟨htimer.trans (congrArg LocalLine.mismatchTimer e :), hmark.trans (congrArg LocalLine.mismatch e :),
      (partsDone_fru s).2.2 (.inr ⟨n, level, hc, hf, hp, h, ht⟩)⟩

end State
end Sys2Proof.Machine
end

section
/-! The bare tick by run state. -/

namespace Sys2Proof.Machine.State

variable {s : State} {n : LineId}

/-! ### A tick in which nothing runs out -/

theorem drive_of_dcu {t : State} (h : t.dcu = s.dcu) (n : LineId) : t.drive n = s.drive n := by rw [drive, drive, h]

/-- A state that has from `v` all but its lines, where `v` has from `u` all but its claims. -/
theorem eq_of_dcu_of_llu {u v w : State} {f : LocalLine → LocalLine} (hv : v = { u with dcu := v.dcu })
    (hw : w = { v.mapLines f with llu := w.llu }) :
    w = { u with dcu := w.dcu, llu := w.llu } ∧ w.dcu = v.dcu := by
  have hdcu : w.dcu = v.dcu := (congrArg dcu hw :)
  refine ⟨?_, hdcu⟩
  calc w = { v with llu := w.llu } := hw
    _ = { u with dcu := v.dcu, llu := w.llu } := congrArg (fun x : State => { x with llu := w.llu }) hv
    _ = { u with dcu := w.dcu, llu := w.llu } := by rw [hdcu]

theorem deadTimeTick_kept (l : LocalLine) : (deadTimeTick l).filtered = l.filtered ∧
    (deadTimeTick l).record = l.record ∧ (deadTimeTick l).sampled = l.sampled := by
  unfold deadTimeTick
  split <;> exact ⟨rfl, rfl, rfl⟩

theorem deadTimeTick_deadTime (l : LocalLine) :
    (deadTimeTick l).deadTime = if l.deadCounted then l.deadTime else l.deadTime - 1 := by
  unfold deadTimeTick
  split <;> rfl

theorem countdownsDone_quiet (hcount : ∀ n, (s.drive n).counted = false → ∀ r, (s.drive n).countdown = some r → 1 < r) :
    s.countdownsDone = { s.lpiTick with dcu := s.countdownsDone.dcu } ∧
      ∀ n, s.countdownsDone.drive n = (s.drive n).countTick := by
  have hdrive : ∀ n, s.lpiTick.drive n = s.drive n := fun n => by rw [drive, lpiTick_dcu]; rfl
  obtain ⟨h1, h2⟩ := countdownTicks_quiet nodup_allLines s.lpiTick fun n _ => by rw [hdrive]; exact hcount n
  refine ⟨h1, fun n => (h2 n).trans ?_⟩
  rw [if_pos (mem_allLines n), hdrive]

theorem countdownsDone_line (s : State) (n : LineId) : s.countdownsDone.line n = s.line n :=
  line_of_llu ((foldl_block State.llu (f := countdownTick) (by simp) allLines s.lpiTick).trans (lpiTick_llu s)) n

/-- R96, R97, R121, R127: a tick in which no countdown and no record runs out. -/
theorem samplesDone_quiet
    (hcount : ∀ n, (s.drive n).counted = false → ∀ r, (s.drive n).countdown = some r → 1 < r)
    (hrecord : ∀ n r, (s.line n).sampled = false → (s.line n).record = some r → 1 < r.remaining) :
    s.samplesDone = { s.lpiTick with dcu := s.samplesDone.dcu, llu := s.samplesDone.llu } ∧
      (∀ n, s.samplesDone.drive n = (s.drive n).countTick) ∧
      ∀ n, s.samplesDone.line n = (deadTimeTick (s.line n)).sampleStep := by
  obtain ⟨h1, hdrive⟩ := countdownsDone_quiet hcount
  have hline : ∀ n, (s.countdownsDone.mapLines deadTimeTick).line n = deadTimeTick (s.line n) := fun n =>
    (line_mapLines _ n _).trans (congrArg deadTimeTick (countdownsDone_line s n))
  obtain ⟨h3, h4⟩ := sampleTicks_quiet nodup_allLines (s.countdownsDone.mapLines deadTimeTick) fun n _ r hs hr => by
    obtain ⟨-, e2, e3⟩ := deadTimeTick_kept (s.line n)
    have hsampled := (congrArg LocalLine.sampled (hline n)).trans e3
    have hkept := (congrArg LocalLine.record (hline n)).trans e2
    exact hrecord n r (hsampled.symm.trans hs) (hkept.symm.trans hr)
  have hw : s.samplesDone = { s.countdownsDone.mapLines deadTimeTick with llu := s.samplesDone.llu } := h3
  obtain ⟨hblocks, hdcu⟩ := eq_of_dcu_of_llu h1 hw
  refine ⟨hblocks, fun n => ?_, fun n => ?_⟩
  · exact (drive_of_dcu hdcu n).trans (hdrive n)
  · refine (h4 n).trans ?_
    rw [if_pos (mem_allLines n), hline]

theorem uncounted_kept {z d : DriveLine} (h : z = { d with counted := false }) :
    z.claim = d.claim ∧ z.limit = d.limit ∧ z.countdown = d.countdown := by
  subst h
  exact ⟨rfl, rfl, rfl⟩

/-- R96: what a tick without an expiry leaves of a drive line. -/
theorem countTick_kept (d : DriveLine) : d.countTick.claim = d.claim ∧ d.countTick.limit = d.limit ∧
    d.countTick.countdown = if d.counted then d.countdown else d.countdown.map (· - 1) := by
  unfold DriveLine.countTick
  split <;> exact ⟨rfl, rfl, rfl⟩

/-- R122: what a sample without an acceptance leaves of a line. -/
theorem sampleStep_kept (l : LocalLine) : l.sampleStep.filtered = l.filtered ∧ l.sampleStep.deadTime = l.deadTime ∧
    (l.sampled = true ∨ l.record = none → l.sampleStep.record = l.record) ∧
    (∀ r, l.sampled = false → l.record = some r →
      l.sampleStep.record = some { r with remaining := r.remaining - 1 }) := by
  unfold LocalLine.sampleStep
  split
  · next hs => exact ⟨rfl, rfl, fun _ => rfl, fun r h => by simp [hs] at h⟩
  · next hs => exact ⟨rfl, rfl, fun h => by simp [h.resolve_left hs], fun r _ h => by simp [h]⟩

/-! ### The blocks behind the second half of a tick -/

/-- A block that no comparison and no pulse touches stands behind a tick as the samples leave it. -/
theorem runningParts_block {β : Type} (g : State → β) (hc : ∀ s n, g (compareTick s n) = g s)
    (hm : ∀ s f, g (mapLines s f) = g s) (s : State) : g s.runningParts = g s.samplesDone :=
  (foldl_block g hc allLines (s.samplesDone.mapLines pulseTick)).trans (hm _ _)

theorem partsDone_sbs (s : State) : s.partsDone.sbs = s.samplesDone.sbs :=
  (opening_sbs _).trans (runningParts_block State.sbs compareTick_sbs mapLines_sbs s)

theorem partsDone_mku (s : State) : s.partsDone.mku = s.samplesDone.mku :=
  (opening_mku _).trans (runningParts_block State.mku compareTick_mku mapLines_mku s)

theorem partsDone_asc (s : State) : s.partsDone.asc = s.samplesDone.asc :=
  (opening_asc _).trans (runningParts_block State.asc compareTick_asc mapLines_asc s)

theorem partsDone_tvu (s : State) : s.partsDone.tvu = s.samplesDone.tvu :=
  (opening_tvu _).trans (runningParts_block State.tvu compareTick_tvu mapLines_tvu s)

/-- R129 to R132: a bare tick in which nothing runs out, but for the read-back. -/
theorem partsDone_quiet
    (hcount : ∀ n, (s.drive n).counted = false → ∀ r, (s.drive n).countdown = some r → 1 < r)
    (hrecord : ∀ n r, (s.line n).sampled = false → (s.line n).record = some r → 1 < r.remaining) :
    s.partsDone.sbs = s.sbs ∧ s.partsDone.mku = s.lpiTick.mku ∧ s.partsDone.asc = s.asc ∧ s.partsDone.tvu = s.tvu ∧
    ((∀ x, s.lpi.transmission = some x → x.bit < x.frame.ticks) → s.partsDone.mku = s.mku) ∧
    s.partsDone.fru = { s.lpiTick.fru with events := { s.fru.events with
      driveMismatch := s.partsDone.fru.events.driveMismatch } } ∧
    s.partsDone.fru.counters = s.fru.counters ∧
    ∀ n : LineId, (s.partsDone.line n).filtered = (s.line n).filtered ∧
      (s.partsDone.drive n).claim = (s.drive n).claim ∧ (s.partsDone.drive n).limit = (s.drive n).limit ∧
      (s.partsDone.drive n).countdown =
        (if (s.drive n).counted then (s.drive n).countdown else (s.drive n).countdown.map (· - 1)) ∧
      (s.partsDone.line n).deadTime =
        (if (s.line n).deadCounted then (s.line n).deadTime else (s.line n).deadTime - 1) ∧
      ((s.line n).sampled = true ∨ (s.line n).record = none →
        (s.partsDone.line n).record = (s.line n).record) ∧
      (∀ r, (s.line n).sampled = false → (s.line n).record = some r →
        (s.partsDone.line n).record = some { r with remaining := r.remaining - 1 }) := by
  obtain ⟨hw, hdrive, hline⟩ := samplesDone_quiet hcount hrecord
  obtain ⟨hevents, hcounters, -⟩ := lpiTick_kept s
  have hmku : s.partsDone.mku = s.lpiTick.mku := (partsDone_mku s).trans (congrArg mku hw :)
  have hfru : s.samplesDone.fru = s.lpiTick.fru := (congrArg fru hw :)
  have hparts := (partsDone_fru s).1
  rw [hfru, hevents] at hparts
  refine ⟨(partsDone_sbs s).trans ((congrArg sbs hw :).trans (lpiTick_sbs s)), hmku,
    (partsDone_asc s).trans ((congrArg asc hw :).trans (lpiTick_asc s)),
    (partsDone_tvu s).trans ((congrArg tvu hw :).trans (lpiTick_tvu s)), fun h => hmku.trans (lpiTick_mku h), hparts,
    (congrArg Fru.counters hparts :).trans hcounters, fun n => ?_⟩
  obtain ⟨-, f2, f3, f4, -⟩ := partsDone_line s n
  obtain ⟨k1, k2, k3⟩ := countTick_kept (s.drive n)
  obtain ⟨l1, l2, l3, l4⟩ := sampleStep_kept (deadTimeTick (s.line n))
  obtain ⟨d1, d2, d3⟩ := deadTimeTick_kept (s.line n)
  rw [hline] at f2 f3 f4
  rw [d2, d3] at l3 l4
  obtain ⟨u1, u2, u3⟩ := uncounted_kept (partsDone_drive s n)
  rw [hdrive] at u1 u2 u3
  exact ⟨f2.trans (l1.trans d1), u1.trans k1, u2.trans k2, u3.trans k3, f4.trans (l2.trans (deadTimeTick_deadTime _)),
    fun h => f3.trans (l3 h), fun r hs hr => f3.trans (l4 r hs hr)⟩

/-- The marks of the lines behind the opening of a tick. -/
theorem partsDone_marks (s : State) (n : LineId) : (s.partsDone.line n).sampled = false ∧
    (s.partsDone.line n).deadCounted = false ∧ (s.partsDone.line n).pulseCounted = false ∧
    (s.partsDone.line n).compared = false := by
  obtain ⟨-, -, -, -, -, -, -, -, -, h⟩ := LocalLine.unmarked_kept (partsDone_line_eq s n)
  exact h

theorem partsDone_ltu (s : State) : s.partsDone.ltu = { s.lpiTick.ltu with ticked := false } :=
  (opening_ltu _).trans (congrArg (fun l : Ltu => { l with ticked := false }) (runningParts_ltu_eq s))

theorem partsDone_lpi (s : State) : s.partsDone.lpi = s.lpiTick.lpi.nextBit := by
  have h : s.partsDone.lpi = s.runningParts.lpi.nextBit := opening_lpi s.runningParts
  rw [h, runningParts_lpi]

theorem running_lpiTick (h : s.running = true) : s.lpiTick.running = true := by
  unfold running at *
  rw [lpiTick_cfl]
  exact h

theorem countdownsDone_cfl (s : State) : s.countdownsDone.cfl = s.cfl :=
  (foldl_block State.cfl (f := countdownTick) (by simp) allLines s.lpiTick).trans (lpiTick_cfl s)

theorem running_countdownsDone (h : s.running = true) : (s.countdownsDone.mapLines deadTimeTick).running = true := by
  unfold running at *
  rw [mapLines_cfl, countdownsDone_cfl]
  exact h

/-- The step of a HALTED station on an empty queue. -/
theorem step_haltedTick (hp : s.pending = []) (hr : s.cfl.run = .halted) : ∃ t u, step s = .next t ∧ s.LpiPart u ∧
    t = { u with lpi := u.lpi.nextBit } ∧ t.cfl = s.cfl ∧ t.sbs = s.sbs ∧ t.asc = s.asc ∧ t.dcu = s.dcu ∧
    t.tvu = s.tvu ∧ t.llu = s.llu ∧ t.srh = s.srh ∧ t.fru.events = s.fru.events ∧
    t.fru.counters = s.fru.counters ∧ t.lpi.state = s.lpi.state := by
  obtain ⟨h1, h2, h3⟩ := lpiTick_kept s
  exact ⟨_, s.lpiTick, step_halted hp hr, lpiTick_part s, rfl, lpiTick_cfl s, lpiTick_sbs s, lpiTick_asc s,
    lpiTick_dcu s, lpiTick_tvu s, lpiTick_llu s, lpiTick_srh s, h1, h2, h3⟩

end Sys2Proof.Machine.State

namespace Sys2Proof.Machine

/-- Settles O3: the two halves of a tick, the ticks of the other run states, and the marks. -/
theorem bareTick : Obligations.BareTick := by
  refine ⟨fun s hp hr ht => State.step_ltuHalf hp hr ht, fun s hp hr ht => ?_, fun s hp hr =>
    ⟨fun hk => State.step_held hp hr hk, fun k hk => ⟨_, State.step_reading hp hr hk, rfl, rfl, rfl, rfl, rfl, rfl, rfl,
      rfl, rfl, rfl, rfl, rfl⟩⟩, fun s hp hr => State.step_haltedTick hp hr, fun s ht => State.exec_ticked ht,
    fun s n => ⟨State.exec_sampled, State.exec_counted, State.exec_compared⟩⟩
  obtain ⟨hfru, hflag⟩ := State.partsDone_fru s
  refine ⟨s.partsDone, s.lpiTick, s.countdownsDone, s.samplesDone, State.step_parts hp hr ht, State.lpiTick_part s,
    State.countdownTicks_lineByLine _ (State.running_lpiTick hr),
    State.sampleTicks_lineByLine _ (State.running_countdownsDone hr), State.partsDone_lpi s, State.partsDone_ltu s, ?_,
    (State.opening_cfl _).trans (State.runningParts_cfl s), (State.opening_srh _).trans (State.runningParts_srh s),
    (State.opening_pending _).trans (State.runningParts_pending s), State.partsDone_sbs s, State.partsDone_mku s,
    State.partsDone_asc s, State.partsDone_tvu s, hfru, hflag, fun n => ?_, fun n => ?_, State.partsDone_quiet⟩
  · obtain ⟨slot, hslot⟩ := State.lpiTick_ltu s
    rw [State.partsDone_ltu, hslot]
  · obtain ⟨-, f2, f3, f4, f5, -⟩ := State.partsDone_line s n
    exact ⟨State.partsDone_drive s n, f2, f3, f4, f5, State.partsDone_marks s n⟩
  · obtain ⟨f1, -, -, -, -, f6, -⟩ := State.partsDone_line s n
    obtain ⟨p1, p2, p3⟩ := State.partsDone_presented s n
    obtain ⟨r1, r2⟩ := State.partsDone_readBack s n
    exact ⟨f1, p1, p2, p3, fun level => State.outputPin_of_presented, f6, r1, r2⟩

end Sys2Proof.Machine
end

section
/-! The order of due points (R67 to R69): what filing and a pass keep of it, and the tail test. -/

namespace Sys2Proof.Machine

variable {δ : Type} {r : DomainRules δ}

/-! ### Filing (R67) -/

/-- R67: a filed action stands behind the leading actions that are at or before it. -/
theorem fileAction_split (r : DomainRules δ) (a : Action δ) (l : List (Action δ)) : ∃ front back, l = front ++ back ∧
    fileAction r a l = front ++ a :: back ∧ (∀ x ∈ front, r.atOrBefore x.due a.due = true) ∧
    ∀ y rest, back = y :: rest → r.atOrBefore y.due a.due = false := by
  induction l with
  | nil => exact ⟨[], [], rfl, rfl, by simp, by simp⟩
  | cons x l ih =>
    cases hx : r.atOrBefore x.due a.due with
    | true =>
      obtain ⟨front, back, hl, hfile, hfront, hback⟩ := ih
      refine ⟨x :: front, back, by rw [hl, List.cons_append], ?_, ?_, hback⟩
      · simp only [fileAction, hx, if_true, hfile, List.cons_append]
      · simpa [hx] using hfront
    | false =>
      refine ⟨[], x :: l, rfl, ?_, by simp, ?_⟩
      · simp [fileAction, hx]
      · rintro y rest ⟨⟩
        exact hx

/-- R67: filing keeps an order in which the filed action can be placed by its rule. -/
theorem fileAction_pairwise {le : δ → δ → Prop} {a : Action δ} {l : List (Action δ)}
    (htrans : ∀ x y z, le x y → le y z → le x z)
    (hbefore : ∀ x ∈ l, r.atOrBefore x.due a.due = true → le x.due a.due)
    (hbehind : ∀ x ∈ l, r.atOrBefore x.due a.due = false → le a.due x.due)
    (hl : l.Pairwise fun x y => le x.due y.due) : (fileAction r a l).Pairwise fun x y => le x.due y.due := by
  induction l with
  | nil => exact List.pairwise_singleton _ _
  | cons x l ih =>
    obtain ⟨hx, hl⟩ := List.pairwise_cons.1 hl
    cases hd : r.atOrBefore x.due a.due with
    | true =>
      simp only [fileAction, hd, if_true]
      refine List.pairwise_cons.2 ⟨fun y hy => ?_, ih (fun y hy => hbefore y (List.mem_cons_of_mem _ hy))
        (fun y hy => hbehind y (List.mem_cons_of_mem _ hy)) hl⟩
      obtain rfl | hy := (mem_fileAction r a y l).1 hy
      · exact hbefore x List.mem_cons_self hd
      · exact hx y hy
    | false =>
      have hax := hbehind x List.mem_cons_self hd
      simp only [fileAction, hd]
      refine List.pairwise_cons.2 ⟨fun y hy => ?_, List.pairwise_cons.2 ⟨hx, hl⟩⟩
      obtain rfl | hy := List.mem_cons.1 hy
      · exact hax
      · exact htrans _ _ _ hax (hx y hy)

/-- R67: in a total order, filing goes behind every action at or before the filed one and ahead of every other. -/
theorem fileAction_inOrder (r : DomainRules δ) (a : Action δ) (l : List (Action δ))
    (htotal : ∀ x y : δ, r.atOrBefore x y = true ∨ r.atOrBefore y x = true)
    (htrans : ∀ x y z : δ, r.atOrBefore x y = true → r.atOrBefore y z = true → r.atOrBefore x z = true)
    (hl : l.Pairwise fun x y => r.atOrBefore x.due y.due = true) :
    (fileAction r a l).Pairwise (fun x y => r.atOrBefore x.due y.due = true) ∧
    ∃ front back, l = front ++ back ∧ fileAction r a l = front ++ a :: back ∧
      (∀ x ∈ front, r.atOrBefore x.due a.due = true) ∧ ∀ y ∈ back, r.atOrBefore y.due a.due = false := by
  refine ⟨fileAction_pairwise (le := fun x y => r.atOrBefore x y = true) htrans (fun x _ h => h)
    (fun x _ h => (htotal a.due x.due).resolve_right (by simp [h])) hl, ?_⟩
  obtain ⟨front, back, hsplit, hfile, hfront, hback⟩ := fileAction_split r a l
  refine ⟨front, back, hsplit, hfile, hfront, fun y hy => ?_⟩
  cases back with
  | nil => exact absurd hy (List.not_mem_nil)
  | cons z rest =>
    have hz := hback z rest rfl
    obtain rfl | hy := List.mem_cons.1 hy
    · exact hz
    · have hzy : r.atOrBefore z.due y.due = true := by
        rw [hsplit, List.pairwise_append] at hl
        exact (List.pairwise_cons.1 hl.2.1).1 y hy
      exact Bool.eq_false_iff.2 fun h => by simp [htrans _ _ _ hzy h] at hz

/-! ### Passes (R76 to R79) -/

/-- R76: a pass keeps an order in which the re-filed actions can be placed by their rule. -/
theorem pass_pairwise {templates : Table Template 16} {le : δ → δ → Prop} {inRange small : δ → Prop}
    (htrans : ∀ x y z, le x y → le y z → le x z)
    (hbefore : ∀ x y, inRange x → small y → r.atOrBefore x y = true → le x y)
    (hbehind : ∀ x y, inRange x → small y → r.atOrBefore x y = false → le y x)
    (hgap : ∀ x gap, inRange x → r.isDue x = true → gap < 65536 → inRange (r.addGap x gap) ∧ small (r.addGap x gap))
    (p : Pool δ) (hr : ∀ a ∈ p.schedule, inRange a.due) (hp : p.schedule.Pairwise fun x y => le x.due y.due) :
    (∀ a ∈ (p.pass r templates).schedule, inRange a.due) ∧
      (p.pass r templates).schedule.Pairwise fun x y => le x.due y.due := by
  induction hn : stepsLeft p.schedule using Nat.strong_induction_on generalizing p with
  | _ n ih =>
    cases hs : p.schedule with
    | nil =>
      rw [Pool.pass_nil r templates p hs]
      exact ⟨hr, hp⟩
    | cons a rest =>
      cases hd : r.isDue a.due with
      | false =>
        rw [pass_of_not_due hs hd]
        exact ⟨hr, hp⟩
      | true =>
        have hlt := fireHead_stepsLeft r templates a rest p
        rw [pass_of_due hs hd]
        rw [hs] at hr hp
        obtain ⟨-, hrest⟩ := List.pairwise_cons.1 hp
        have hra := hr a List.mem_cons_self
        have hrr : ∀ x ∈ rest, inRange x.due := fun x hx => hr x (List.mem_cons_of_mem _ hx)
        refine ih _ (by rw [← hn, hs]; exact hlt) _ ?_ ?_ rfl
        · cases hlast : (templates.get a.template).lastStep a.next with
          | true => rw [(fireHead_last hlast).1]; exact hrr
          | false =>
            rw [(fireHead_refiles hlast).1]
            intro x hx
            obtain rfl | hx := (mem_fileAction r _ x rest).1 hx
            · exact (hgap _ _ hra hd (BitVec.isLt _)).1
            · exact hrr x hx
        · cases hlast : (templates.get a.template).lastStep a.next with
          | true => rw [(fireHead_last hlast).1]; exact hrest
          | false =>
            rw [(fireHead_refiles hlast).1]
            obtain ⟨-, hsmall⟩ := hgap _ ((templates.get a.template).steps.get a.next).gap.toNat hra hd (BitVec.isLt _)
            exact fileAction_pairwise htrans (fun x hx => hbefore _ _ (hrr x hx) hsmall)
              (fun x hx => hbehind _ _ (hrr x hx) hsmall) hrest

/-! ### Distances ahead of the travel position (R69) -/

theorem signedDifference_backward (d p : Word) : signedDifference d (p - 1#32) =
    if signedDifference d p = 2147483647 then -2147483648 else signedDifference d p + 1 := by
  have hrange := signedDifference_range d p
  have e : d - (p - 1#32) = d - p + BitVec.ofInt 32 1 := by
    rw [show BitVec.ofInt 32 1 = 1#32 from rfl]
    ring
  unfold signedDifference at hrange ⊢
  rw [e]
  split
  · next h =>
    have hx : d - p = 2147483647#32 := BitVec.eq_of_toInt_eq (h.trans (by decide))
    rw [hx]
    decide
  · next h => exact toInt_add_ofInt (by omega) (by omega)

theorem signedDifference_forward {d p : Word} (h : -2147483648 < signedDifference d p) :
    signedDifference d (p + 1#32) = signedDifference d p - 1 := by
  have hrange := signedDifference_range d p
  have e : d - (p + 1#32) = d - p + BitVec.ofInt 32 (-1) := by
    rw [show BitVec.ofInt 32 (-1) = -1#32 from rfl]
    ring
  unfold signedDifference at hrange h ⊢
  rw [e, toInt_add_ofInt (by omega) (by omega)]
  rfl

/-- R69: a due point moved on, short of the wrap. -/
theorem signedDifference_add_ofNat {d p : Word} {k : Nat} (h : signedDifference d p + k < 2147483648) :
    signedDifference (d + BitVec.ofNat 32 k) p = signedDifference d p + k := by
  have e : d + BitVec.ofNat 32 k - p = d - p + BitVec.ofNat 32 k := by ring
  unfold signedDifference at *
  rw [e, toInt_add_ofNat h]

theorem signedDifference_swap {d p : Word} (h : -2147483648 < signedDifference d p) :
    signedDifference p d = -signedDifference d p := by
  unfold signedDifference at *
  have e : p - d = -(d - p) := by ring
  have hne : d - p ≠ BitVec.intMin 32 := fun he => by
    rw [he] at h
    exact absurd h (by decide)
  rw [e, BitVec.toInt_neg_of_ne_intMin hne]

namespace State

variable {s : State}

/-- R69: the tail test looks at the last action alone. -/
theorem tailTest_append {front : List (Action Word)} {a : Action Word} (h : s.asc.travel = front ++ [a]) :
    s.tailTest = if signedDifference a.due s.tvu.position = -2147483648 then
      { s with asc := { s.asc with travel := a :: front } } else s := by
  have hlast : s.asc.travel.getLast? = some a := by simp [h]
  have hdrop : s.asc.travel.dropLast = front := by simp [h]
  simp only [tailTest, hlast, hdrop]

theorem backward_wraps_iff (d p : Word) :
    signedDifference d (p - 1#32) = -2147483648 ↔ signedDifference d p = 2147483647 := by
  have hrange := signedDifference_range d p
  rw [signedDifference_backward]
  split <;> omega

/-- R69: the schedule of a backward count change as its pass meets it. -/
theorem countChange_backward {front : List (Action Word)} {a : Action Word} (h : s.asc.travel = front ++ [a]) :
    s.countChange .backward = State.travelPass { s with
      tvu := { s.tvu with position := s.tvu.position - 1#32 }
      asc := { s.asc with travel := if s.travelAhead a = 2147483647 then a :: front else s.asc.travel } } := by
  change (tailTest _).travelPass = _
  rw [tailTest_append (s := { s with tvu := { s.tvu with position := s.tvu.position - 1#32 } }) h]
  by_cases hw : s.travelAhead a = 2147483647
  · rw [if_pos ((backward_wraps_iff _ _).2 hw), if_pos hw]
  · rw [if_neg (mt (backward_wraps_iff _ _).1 hw), if_neg hw]

end State
end Sys2Proof.Machine
end

section
/-! The travel schedule in order (R67, R69): count changes, passes, admissions, cancellations and rebases keep it. -/

namespace Sys2Proof.Machine

/-- A property of the head that the order hands on holds of every member. -/
theorem forall_of_head {α : Type} {R : α → α → Prop} {P : α → Prop} {l : List α} (hl : l.Pairwise R)
    (hup : ∀ a b, R a b → P a → P b) (hhead : ∀ a rest, l = a :: rest → P a) : ∀ a ∈ l, P a := by
  cases l with
  | nil => exact fun a ha => absurd ha List.not_mem_nil
  | cons x rest =>
    intro a ha
    obtain rfl | ha := List.mem_cons.1 ha
    · exact hhead _ _ rfl
    · exact hup x a ((List.pairwise_cons.1 hl).1 a ha) (hhead _ _ rfl)

/-- A property of all members but the last, beside the order. -/
theorem pairwise_and_of_dropLast {α : Type} {R : α → α → Prop} {P : α → Prop} {l : List α} (hl : l.Pairwise R)
    (hp : ∀ a ∈ l.dropLast, P a) : l.Pairwise fun a b => R a b ∧ P a := by
  induction l with
  | nil => exact List.Pairwise.nil
  | cons x rest ih =>
    obtain ⟨hx, hrest⟩ := List.pairwise_cons.1 hl
    cases rest with
    | nil => exact List.pairwise_singleton _ _
    | cons y rest =>
      rw [List.dropLast_cons_cons] at hp
      exact List.pairwise_cons.2 ⟨fun b hb => ⟨hx b hb, hp x List.mem_cons_self⟩,
        ih hrest fun a ha => hp a (List.mem_cons_of_mem _ ha)⟩

/-! ### The order of the distances ahead (R69) -/

/-- R67, R69: seen from position `p`, due point `x` is at or before `y`, and `k` backward counts do not take it past the
wrap of the distance ahead. -/
def TravelBefore (k : Nat) (p x y : Word) : Prop :=
  signedDifference x p ≤ signedDifference y p ∧ signedDifference x p + k < 2147483648

/-- A travel schedule stands in the order of its distances ahead of `p`, clear of the wrap by `k` counts. -/
def TravelOrdered (k : Nat) (p : Word) (l : List (Action Word)) : Prop :=
  l.Pairwise fun a b => TravelBefore k p a.due b.due

variable {k j : Nat} {p : Word} {l : List (Action Word)}

theorem TravelBefore.mono {x y : Word} (hk : j ≤ k) (h : TravelBefore k p x y) : TravelBefore j p x y := by
  obtain ⟨h1, h2⟩ := h
  exact ⟨h1, by omega⟩

theorem TravelBefore.trans {x y z : Word} (h : TravelBefore k p x y) (g : TravelBefore k p y z) :
    TravelBefore k p x z := ⟨h.1.trans g.1, h.2⟩

/-- R67: of two due points the rule tells the order, when the one placed is clear of the wrap. -/
theorem travelBefore_of_rule {x y : Word} (hy : signedDifference y p + k < 2147483648) :
    ((travelRules p).atOrBefore x y = true → TravelBefore k p x y) ∧
      ((travelRules p).atOrBefore x y = false → TravelBefore k p y x) := by
  simp only [travelRules, decide_eq_true_eq, decide_eq_false_iff_not, TravelBefore]
  exact ⟨fun h => ⟨h, by omega⟩, fun h => ⟨by omega, hy⟩⟩

/-- R69: a forward count changes no order, since no distance ahead is at the far end of its range. -/
theorem TravelOrdered.forward (h : TravelOrdered k p l) (h0 : ∀ a ∈ l, 0 ≤ signedDifference a.due p) :
    TravelOrdered k (p + 1#32) l := by
  refine List.Pairwise.imp_of_mem (fun {a b} ha hb hab => ?_) h
  obtain ⟨h1, h2⟩ := hab
  have ha0 := h0 a ha
  have hb0 := h0 b hb
  rw [TravelBefore, signedDifference_forward (by omega), signedDifference_forward (by omega)]
  omega

/-- R69: behind a backward count with its tail test the schedule is in order: every action but the tail has moved one
count further ahead, and a tail that wrapped has gone to the head. -/
theorem TravelOrdered.backward {front : List (Action Word)} {a : Action Word}
    (h : TravelOrdered (k + 1) p (front ++ [a])) (h0 : ∀ x ∈ front ++ [a], 0 ≤ signedDifference x.due p) :
    TravelOrdered k (p - 1#32) (if signedDifference a.due p = 2147483647 then a :: front else front ++ [a]) := by
  obtain ⟨hfront, -, htail⟩ := List.pairwise_append.1 h
  have hclear : ∀ x ∈ front, 0 ≤ signedDifference x.due p ∧ signedDifference x.due p + (k + 1) < 2147483648 ∧
      signedDifference x.due (p - 1#32) = signedDifference x.due p + 1 := fun x hx => by
    obtain ⟨-, h2⟩ := htail x hx a (List.mem_singleton_self a)
    have hx0 := h0 x (List.mem_append_left _ hx)
    refine ⟨hx0, by exact_mod_cast h2, ?_⟩
    rw [signedDifference_backward, if_neg (by omega)]
  have hmoved : TravelOrdered k (p - 1#32) front := by
    refine List.Pairwise.imp_of_mem (fun {x y} hx hy hxy => ?_) hfront
    obtain ⟨h1, h2⟩ := hxy
    obtain ⟨-, hx1, ex⟩ := hclear x hx
    obtain ⟨-, -, ey⟩ := hclear y hy
    rw [TravelBefore, ex, ey]
    omega
  have ha0 := h0 a (List.mem_append_right _ (List.mem_singleton_self a))
  split
  · next hw =>
    refine List.pairwise_cons.2 ⟨fun x hx => ?_, hmoved⟩
    obtain ⟨hx0, hx1, ex⟩ := hclear x hx
    rw [TravelBefore, ex, (State.backward_wraps_iff _ _).2 hw]
    omega
  · next hw =>
    refine List.pairwise_append.2 ⟨hmoved, List.pairwise_singleton _ _, fun x hx y hy => ?_⟩
    obtain rfl := List.mem_singleton.1 hy
    obtain ⟨h1, h2⟩ := htail x hx y (List.mem_singleton_self y)
    obtain ⟨hx0, hx1, ex⟩ := hclear x hx
    rw [TravelBefore, ex, signedDifference_backward, if_neg hw]
    omega

namespace State

variable {s t : State}

/-- The travel schedule in order, clear of the wrap by `k` counts and with none of its due points past. -/
def TravelFits (k : Nat) (s : State) : Prop :=
  TravelOrdered k s.tvu.position s.asc.travel ∧ ∀ a ∈ s.asc.travel, 0 ≤ s.travelAhead a

theorem travelFits_of_inOrder (h : s.TravelInOrder) (hw : s.OneNearWrap) : s.TravelFits 2 :=
  ⟨(pairwise_and_of_dropLast h.1 hw).imp fun ⟨h1, h2⟩ => ⟨h1, by unfold travelAhead at h2; omega⟩, h.2⟩

theorem TravelFits.inOrder (h : s.TravelFits k) : s.TravelInOrder := ⟨h.1.imp fun hab => hab.1, h.2⟩

theorem TravelFits.mono (hk : j ≤ k) (h : s.TravelFits k) : s.TravelFits j := ⟨h.1.imp fun hab => hab.mono hk, h.2⟩

theorem travelFits_of_same (h : s.TravelFits k) (ha : t.asc.travel = s.asc.travel)
    (hp : t.tvu.position = s.tvu.position) : t.TravelFits k := by
  unfold TravelFits travelAhead at *
  rwa [ha, hp]

theorem travelFits_nil (h : s.asc.travel = []) : s.TravelFits k := by
  unfold TravelFits
  rw [h]
  exact ⟨List.Pairwise.nil, fun a ha => absurd ha List.not_mem_nil⟩

/-- A schedule of which some actions are gone. -/
theorem travelFits_of_sublist (h : s.TravelFits k) (ha : t.asc.travel.Sublist s.asc.travel)
    (hp : t.tvu.position = s.tvu.position) : t.TravelFits k := by
  unfold TravelFits travelAhead at *
  rw [hp]
  exact ⟨h.1.sublist ha, fun a hx => h.2 a (ha.subset hx)⟩

/-- R76: a pass of a schedule in order leaves it in order, with none of its due points past. -/
theorem travelPass_fits (hk : k ≤ 2) (h : TravelOrdered k s.tvu.position s.asc.travel) : s.travelPass.TravelFits k := by
  have hpass := pass_pairwise (r := s.travelDomain) (templates := s.sbs.templates) (le := TravelBefore k s.tvu.position)
    (inRange := fun _ => True) (small := fun y => signedDifference y s.tvu.position + k < 2147483648)
    (fun _ _ _ => TravelBefore.trans) (fun _ _ _ hy => (travelBefore_of_rule hy).1)
    (fun _ _ _ hy => (travelBefore_of_rule hy).2) (fun x gap _ hd hg => ⟨trivial, ?_⟩) s.travelPool (fun _ _ => trivial) h
  · refine ⟨hpass.2, forall_of_head hpass.2 (fun a b hab ha => ?_) fun a rest hl => ?_⟩
    · exact le_trans ha hab.1
    · exact (travelPass_noHeadDue s a rest hl).le
  · have hd' : signedDifference x s.tvu.position ≤ 0 := by simpa [travelDomain, travelRules] using hd
    change signedDifference (x + BitVec.ofNat 32 gap) s.tvu.position + k < 2147483648
    rw [signedDifference_add_ofNat (by omega)]
    omega

/-- R73: a request clear of the wrap is admitted into its place. -/
theorem admitTravel_fits (hk : k ≤ 2) (h : s.TravelFits k) (due : Word) (template : Fin 16)
    (hd : signedDifference due s.tvu.position + k < 2147483648) (hl : -2147483648 < signedDifference due s.tvu.position) :
    (s.admitTravel due template).TravelFits k := by
  obtain e | e | ⟨slot, free, -, hfiled⟩ := s.admitTravel_cases due template
  · exact travelFits_of_same h (by rw [e]; rfl) (by rw [e]; rfl)
  · exact travelFits_of_same h (by rw [e]; rfl) (by rw [e]; rfl)
  · have hpair : TravelOrdered k s.tvu.position (fileAction s.travelDomain (newAction slot due template) s.asc.travel) :=
      fileAction_pairwise (fun _ _ _ => TravelBefore.trans) (fun _ _ => (travelBefore_of_rule hd).1)
        (fun _ _ => (travelBefore_of_rule hd).2) h.1
    obtain ⟨hlate, e⟩ | ⟨-, e⟩ := hfiled <;> rw [e]
    · refine ⟨hpair, fun a ha => ?_⟩
      obtain rfl | ha := (mem_fileAction _ _ a _).1 ha
      · have hswap := signedDifference_swap hl
        unfold travelLateness at hlate
        change 0 ≤ signedDifference due s.tvu.position
        omega
      · exact h.2 a ha
    · exact travelPass_fits hk hpair

/-- R69, R109: a count change takes one count of the distance from the wrap. -/
theorem countChange_fits (hk : k + 1 ≤ 2) (h : s.TravelFits (k + 1)) (d : CountChange) : (s.countChange d).TravelFits k := by
  cases d with
  | forward => exact travelPass_fits (by omega) ((h.1.forward h.2).imp fun hab => hab.mono (Nat.le_succ k))
  | backward =>
    obtain hnil | ⟨front, a, hl⟩ := List.eq_nil_or_concat' s.asc.travel
    · have e : s.countChange .backward = State.travelPass { s with
          tvu := { s.tvu with position := s.tvu.position - 1#32 } } :=
        congrArg travelPass (tailTest_of_nil (s := { s with
          tvu := { s.tvu with position := s.tvu.position - 1#32 } }) hnil)
      rw [e]
      refine travelPass_fits (by omega) ?_
      change TravelOrdered k _ s.asc.travel
      rw [hnil]
      exact List.Pairwise.nil
    · rw [countChange_backward hl]
      refine travelPass_fits (by omega) ?_
      have hb := TravelOrdered.backward (hl ▸ h.1) (hl ▸ h.2)
      rw [← hl] at hb
      exact hb

/-- R86, R115: a rebase keeps every distance ahead. -/
theorem zeroRebase_fits (h : s.TravelFits k) : s.zeroRebase.TravelFits k := by
  have hsame : ∀ x, signedDifference (x - s.tvu.position) 0#32 = signedDifference x s.tvu.position := fun x => by
    unfold signedDifference
    rw [BitVec.sub_zero]
  constructor
  · refine List.pairwise_map.2 (h.1.imp fun {a b} hab => ?_)
    change TravelBefore k 0#32 (a.due - s.tvu.position) (b.due - s.tvu.position)
    rwa [TravelBefore, hsame, hsame]
  · intro a ha
    obtain ⟨b, hb, rfl⟩ := List.mem_map.1 ha
    change 0 ≤ signedDifference (b.due - s.tvu.position) 0#32
    rw [hsame]
    exact h.2 b hb

theorem cancelWhere_travelFits (h : s.TravelFits k) (w : HeldSet → Bool) : (s.cancelWhere w).TravelFits k := by
  refine travelFits_of_sublist h ?_ rfl
  rw [(cancelWhere_schedules s w).2]
  exact List.filter_sublist

end State
end Sys2Proof.Machine
end

section
/-! The time schedule in order (R67, R68): distances seen from one instant, passes, admissions and cancellations. -/

namespace Sys2Proof.Machine

/-! ### Distances seen from one instant (R1) -/

/-- R2: a period of R184 and an instant of its phases. -/
def ClockFits (p : Nat) (now : Instant) : Prop := 0 < p ∧ p ≤ 65535 ∧ now.phase < p

/-- A due point less than 2^30 cycles from an instant, so that the distance of any two of them is the difference of
theirs. -/
def TimeNear (p : Nat) (now d : Instant) : Prop :=
  d.phase < p ∧ -(1073741823 * (p : Int)) ≤ Instant.distance p now d ∧
    Instant.distance p now d < 1073741824 * (p : Int)

variable {p : Nat} {now x y : Instant}

theorem cycles_lt {c e b : Int} (he : -(p : Int) < e) (h : c * p + e < b * p) : c < b + 1 := by
  by_contra hn
  have : (b + 1) * (p : Int) ≤ c * p := Int.mul_le_mul_of_nonneg_right (by omega) (by omega)
  rw [Int.add_mul] at this
  omega

theorem lt_cycles {c e b : Int} (he : e < (p : Int)) (h : b * p ≤ c * p + e) : b - 1 < c := by
  by_contra hn
  have : c * (p : Int) ≤ (b - 1) * p := Int.mul_le_mul_of_nonneg_right (by omega) (by omega)
  rw [Int.sub_mul] at this
  omega

/-- The cycles of a near due point. -/
theorem TimeNear.cycles (hn : now.phase < p) (h : TimeNear p now x) :
    -1073741823 ≤ (x.cycle - now.cycle).toInt ∧ (x.cycle - now.cycle).toInt ≤ 1073741824 := by
  obtain ⟨hx, hlow, hhigh⟩ := h
  unfold Instant.distance at hlow hhigh
  have h1 := cycles_lt (e := (x.phase : Int) - now.phase) (by omega) hhigh
  rw [← Int.neg_mul] at hlow
  have h2 := lt_cycles (e := (x.phase : Int) - now.phase) (by omega) hlow
  omega

theorem timeNear_self (h : ClockFits p now) : TimeNear p now now := by
  obtain ⟨h0, -, hn⟩ := h
  refine ⟨hn, ?_, ?_⟩ <;> rw [State.distance_self] <;> omega

/-- The distance of two near due points. -/
theorem distance_eq_sub (hn : now.phase < p) (hx : TimeNear p now x) (hy : TimeNear p now y) :
    Instant.distance p x y = Instant.distance p now y - Instant.distance p now x := by
  obtain ⟨hx1, hx2⟩ := hx.cycles hn
  obtain ⟨hy1, hy2⟩ := hy.cycles hn
  have e : y.cycle - x.cycle = y.cycle - now.cycle + BitVec.ofInt 32 (-(x.cycle - now.cycle).toInt) := by
    rw [BitVec.ofInt_neg, BitVec.ofInt_toInt]
    ring
  simp only [Instant.distance]
  rw [e, toInt_add_ofInt (by omega) (by omega)]
  ring

/-- A delay or a gap added to a near due point. -/
theorem TimeNear.distance_add (hc : ClockFits p now) (hx : TimeNear p now x) {d : Nat} (hd : d < 16777216) :
    Instant.distance p now (Instant.add p x d) = Instant.distance p now x + d := by
  obtain ⟨-, hp, hn⟩ := hc
  obtain ⟨-, hx2⟩ := hx.cycles hn
  have hcarry := Nat.div_le_self (x.phase + d) p
  have hphase := hx.1
  exact Machine.distance_add (by omega)

/-- R68: seen from an instant, the rule's order of near due points is the order of their distances. -/
theorem timeRules_atOrBefore (hn : now.phase < p) (hx : TimeNear p now x) (hy : TimeNear p now y) :
    (timeRules p now).atOrBefore x y = decide (Instant.distance p now x ≤ Instant.distance p now y) := by
  change decide (0 ≤ Instant.distance p x y) = _
  rw [distance_eq_sub hn hx hy, decide_eq_decide]
  omega

theorem timeRules_isDue (h : ClockFits p now) (hx : TimeNear p now x) :
    (timeRules p now).isDue x = decide (Instant.distance p now x ≤ 0) := by
  have := timeRules_atOrBefore h.2.2 hx (timeNear_self h)
  rwa [State.distance_self] at this

/-- R79: the due point of a re-filed action is near. -/
theorem TimeNear.addGap (h : ClockFits p now) (hx : TimeNear p now x) (hdue : Instant.distance p now x ≤ 0) {gap : Nat}
    (hg : gap < 65536) : TimeNear p now (Instant.add p x gap) := by
  have hd := hx.distance_add h (d := gap) (by omega)
  obtain ⟨hp, -, -⟩ := h
  obtain ⟨-, hlow, -⟩ := hx
  refine ⟨Nat.mod_lt _ hp, ?_, ?_⟩ <;> rw [hd] <;> omega

/-- The distances from a later instant. -/
theorem TimeNear.later (hn : now.phase < p) (hx : TimeNear p now x) (hy : TimeNear p now y)
    (h0 : 0 ≤ Instant.distance p now x) (hle : Instant.distance p now x ≤ p) (hy0 : 0 ≤ Instant.distance p now y) :
    TimeNear p x y := by
  have hd := distance_eq_sub hn hx hy
  obtain ⟨hphase, -, hhigh⟩ := hy
  refine ⟨hphase, ?_, ?_⟩ <;> omega

namespace State

variable {s t : State}

/-! ### Schedules, passes and admissions -/

/-- R2, R3: the clock of a RUNNING station. -/
theorem clockFits (h : s.TimeSound) (hrun : s.cfl.run = .running) : ClockFits s.period s.now := by
  obtain ⟨p, hp, h1, h2, -⟩ := h.2.1 hrun
  have e : s.period = p.period := by simp [period, hp]
  exact ⟨by omega, by omega, phase_lt h hrun⟩

theorem timeInOrder_of_same (h : s.TimeInOrder) (ha : t.asc.time = s.asc.time) (hp : t.period = s.period)
    (hn : t.now = s.now) : t.TimeInOrder := by
  unfold TimeInOrder timeAhead at *
  rwa [ha, hp, hn]

theorem timeInOrder_nil (h : s.asc.time = []) : s.TimeInOrder := by
  unfold TimeInOrder
  rw [h]
  exact ⟨List.Pairwise.nil, fun a ha => absurd ha List.not_mem_nil⟩

/-- A schedule of which some actions are gone. -/
theorem timeInOrder_of_sublist (h : s.TimeInOrder) (ha : t.asc.time.Sublist s.asc.time) (hp : t.period = s.period)
    (hn : t.now = s.now) : t.TimeInOrder := by
  unfold TimeInOrder timeAhead at *
  rw [hp, hn]
  exact ⟨h.1.sublist ha, fun a hx => h.2 a (ha.subset hx)⟩

theorem TimeInOrder.near (h : s.TimeInOrder) {a : Action Instant} (ha : a ∈ s.asc.time) :
    TimeNear s.period s.now a.due := by
  obtain ⟨hphase, h0, hlt⟩ := h.2 a ha
  unfold timeAhead at h0 hlt
  exact ⟨hphase, by omega, hlt⟩

/-- R76: a pass of a schedule in order leaves it in order, with none of its due points past. -/
theorem timePass_inOrder (hc : ClockFits s.period s.now) (hl : s.asc.time.Pairwise fun a b => s.timeAhead a ≤ s.timeAhead b)
    (hr : ∀ a ∈ s.asc.time, TimeNear s.period s.now a.due) : s.timePass.TimeInOrder := by
  obtain ⟨hnear, hpair⟩ := pass_pairwise (r := s.timeDomain) (templates := s.sbs.templates)
    (le := fun x y => Instant.distance s.period s.now x ≤ Instant.distance s.period s.now y)
    (inRange := TimeNear s.period s.now) (small := TimeNear s.period s.now) (fun _ _ _ => le_trans)
    (fun x y hx hy e => of_decide_eq_true ((timeRules_atOrBefore hc.2.2 hx hy).symm.trans e))
    (fun x y hx hy e => le_of_not_ge (of_decide_eq_false ((timeRules_atOrBefore hc.2.2 hx hy).symm.trans e)))
    (fun x gap hx hd hg => by
      have hadd := hx.addGap hc (of_decide_eq_true ((timeRules_isDue hc hx).symm.trans hd)) hg
      exact ⟨hadd, hadd⟩) s.timePool hr hl
  have hwait := forall_of_head (P := fun a : Action Instant => 0 ≤ Instant.distance s.period s.now a.due) hpair
    (fun a b hab ha => le_trans ha hab) fun a rest e => by
      have hdue := pass_head s.timeDomain s.sbs.templates s.timePool a rest e
      have hnd := (timeRules_isDue hc (hnear a (by rw [e]; exact List.mem_cons_self))).symm.trans hdue
      exact (not_le.1 (of_decide_eq_false hnd)).le
  exact ⟨hpair, fun a ha => ⟨(hnear a ha).1, hwait a ha, (hnear a ha).2.2⟩⟩

/-- R73: a near request is admitted into its place. -/
theorem admitTime_inOrder (hc : ClockFits s.period s.now) (h : s.TimeInOrder) {due : Instant}
    (hd : TimeNear s.period s.now due) (template : Fin 16) : (s.admitTime due template).TimeInOrder := by
  obtain e | e | ⟨slot, free, -, hfiled⟩ := s.admitTime_cases due template
  · exact timeInOrder_of_same h (by rw [e]; rfl) (by rw [e]; rfl) (by rw [e]; rfl)
  · exact timeInOrder_of_same h (by rw [e]; rfl) (by rw [e]; rfl) (by rw [e]; rfl)
  · have hrule : ∀ x ∈ s.asc.time, s.timeDomain.atOrBefore x.due due =
        decide (Instant.distance s.period s.now x.due ≤ Instant.distance s.period s.now due) :=
      fun x hx => timeRules_atOrBefore hc.2.2 (h.near hx) hd
    have hpair := fileAction_pairwise (r := s.timeDomain) (a := newAction slot due template)
      (le := fun x y => Instant.distance s.period s.now x ≤ Instant.distance s.period s.now y) (fun _ _ _ => le_trans)
      (fun x hx e => of_decide_eq_true ((hrule x hx).symm.trans e))
      (fun x hx e => le_of_not_ge (of_decide_eq_false ((hrule x hx).symm.trans e))) h.1
    obtain ⟨hlate, e⟩ | ⟨-, e⟩ := hfiled <;> rw [e]
    · refine ⟨hpair, fun a ha => ?_⟩
      obtain rfl | ha := (mem_fileAction _ _ a _).1 ha
      · refine ⟨hd.1, ?_, hd.2.2⟩
        have hself := distance_eq_sub hc.2.2 hd (timeNear_self hc)
        rw [distance_self] at hself
        unfold timeLateness at hlate
        change 0 ≤ Instant.distance s.period s.now due
        omega
      · exact h.2 a ha
    · refine timePass_inOrder hc hpair fun a ha => ?_
      obtain rfl | ha := (mem_fileAction _ _ a _).1 ha
      · exact hd
      · exact h.near ha

theorem cancelWhere_timeInOrder (h : s.TimeInOrder) (w : HeldSet → Bool) : (s.cancelWhere w).TimeInOrder := by
  refine timeInOrder_of_sublist h ?_ rfl rfl
  rw [(cancelWhere_schedules s w).1]
  exact List.filter_sublist

/-! ### Later instants -/

/-- R8, R16: the schedule as it stands at an instant less than a period later. -/
theorem timePass_later (hc : ClockFits s.period s.now) (h : s.TimeInOrder) (ht : t.asc.time = s.asc.time)
    (hp : t.period = s.period) (hphase : t.now.phase < s.period) (h0 : 0 ≤ Instant.distance s.period s.now t.now)
    (hle : Instant.distance s.period s.now t.now ≤ s.period) : t.timePass.TimeInOrder := by
  have hnear : TimeNear s.period s.now t.now := by
    obtain ⟨hp0, -, -⟩ := hc
    exact ⟨hphase, by omega, by omega⟩
  have hclock : ClockFits t.period t.now := by rw [hp]; exact ⟨hc.1, hc.2.1, hphase⟩
  refine timePass_inOrder hclock ?_ fun a ha => ?_
  · rw [ht]
    refine List.Pairwise.imp_of_mem (fun {a b} ha hb hab => ?_) h.1
    unfold timeAhead at hab ⊢
    rw [hp, distance_eq_sub hc.2.2 hnear (h.near ha), distance_eq_sub hc.2.2 hnear (h.near hb)]
    omega
  · rw [ht] at ha
    rw [hp]
    exact hnear.later hc.2.2 (h.near ha) h0 hle (h.2 a ha).2.1

end State
end Sys2Proof.Machine
end

section
/-! What a request is formed from lies near the present (R58, R59, R112): the instants and the positions of filter
records, of received marks and of the travel history. -/

namespace Sys2Proof.Machine

/-! ### Positions -/

/-- A position less than `n` counts from the present one. -/
def PositionNear (n : Int) (p x : Word) : Prop := -n < signedDifference x p ∧ signedDifference x p < n

variable {n m : Int} {p x a b : Word}

theorem PositionNear.mono (h : PositionNear n p x) (hm : n ≤ m) : PositionNear m p x := by
  obtain ⟨h1, h2⟩ := h
  exact ⟨by omega, by omega⟩

theorem positionNear_self (h : 0 < n) (p : Word) : PositionNear n p p := by
  have e : signedDifference p p = 0 := by simp [signedDifference]
  exact ⟨by omega, by omega⟩

/-- A count change takes one count. -/
theorem PositionNear.count (h : PositionNear n p x) (hn : n ≤ 1073741824) :
    PositionNear (n + 1) (p + 1#32) x ∧ PositionNear (n + 1) (p - 1#32) x := by
  obtain ⟨h1, h2⟩ := h
  rw [PositionNear, PositionNear, signedDifference_forward (by omega), signedDifference_backward, if_neg (by omega)]
  omega

/-- The difference of two positions near one. -/
theorem signedDifference_eq_sub (ha : PositionNear n p a) (hb : PositionNear n p b) (hn : n ≤ 1073741824) :
    signedDifference b a = signedDifference b p - signedDifference a p := by
  obtain ⟨ha1, ha2⟩ := ha
  obtain ⟨hb1, hb2⟩ := hb
  have e : b - a = b - p + BitVec.ofInt 32 (-(a - p).toInt) := by
    rw [BitVec.ofInt_neg, BitVec.ofInt_toInt]
    ring
  unfold signedDifference at *
  rw [e, toInt_add_ofInt (by omega) (by omega)]
  omega

theorem signedDifference_moved {k : Int} (h1 : -2147483648 ≤ signedDifference a p + k)
    (h2 : signedDifference a p + k < 2147483648) :
    signedDifference (a + BitVec.ofInt 32 k) p = signedDifference a p + k := by
  have e : a + BitVec.ofInt 32 k - p = a - p + BitVec.ofInt 32 k := by ring
  unfold signedDifference at *
  rw [e, toInt_add_ofInt h1 h2]

/-- R113: between two near positions lie near ones alone. -/
theorem interpolate_near (ha : PositionNear n p a) (hb : PositionNear n p b) (hn : n ≤ 1073741824) {num den : Nat}
    (h : num < den) : PositionNear n p (interpolate a b num den) := by
  have hd := signedDifference_eq_sub ha hb hn
  obtain ⟨ha1, ha2⟩ := ha
  obtain ⟨hb1, hb2⟩ := hb
  obtain h0 | h0 := le_total 0 (signedDifference b a)
  · obtain ⟨hq0, hq1⟩ := share_bounds h h0
    rw [interpolate_ahead h0, PositionNear, signedDifference_moved (by omega) (by omega)]
    omega
  · obtain ⟨hq0, hq1⟩ := share_bounds (d := -signedDifference b a) h (by omega)
    rw [interpolate_behind h0, PositionNear, signedDifference_moved (by omega) (by omega)]
    omega

theorem historyPosition_mem {l : List HistoryEntry} {c : Word} (h : historyPosition l c = some a) :
    ∃ e ∈ l, e.position = a := by
  obtain ⟨e, he, hp⟩ := Option.map_eq_some_iff.1 h
  exact ⟨e, List.mem_of_find?_eq_some he, hp⟩

/-! ### Instants -/

/-- A capture instant within 2^29 cycles of the present one. -/
def CaptureNear (p : Nat) (now i : Instant) : Prop := i.phase < p ∧ -536870912 < (i.cycle - now.cycle).toInt ∧
  (i.cycle - now.cycle).toInt < 536870912

variable {period : Nat} {now i : Instant}

theorem captureNear_self (h : now.phase < period) : CaptureNear period now now := by
  refine ⟨h, ?_, ?_⟩ <;> simp

/-- R56: the rebuilt cycle of a received mark lies within 32,768 cycles of the receiver's own. -/
theorem captureNear_rebuilt {c : Half} {phase : Nat} (h : phase < period) :
    CaptureNear period now { cycle := rebuildCycle now.cycle c, phase := phase } := by
  have e : rebuildCycle now.cycle c - now.cycle = (c - now.cycle.setWidth 16).signExtend 32 := by
    unfold rebuildCycle
    ring
  have hint : (rebuildCycle now.cycle c - now.cycle).toInt = (c - now.cycle.setWidth 16).toInt := by
    rw [e, BitVec.toInt_signExtend_of_le (by norm_num)]
  have h1 := (c - now.cycle.setWidth 16).le_toInt
  have h2 := (c - now.cycle.setWidth 16).toInt_lt
  norm_num only at h1 h2
  refine ⟨h, ?_, ?_⟩ <;> dsimp only <;> rw [hint] <;> omega

/-- R58: the due point of a near capture and a delay of 24 bits. -/
theorem CaptureNear.due (hc : ClockFits period now) (h : CaptureNear period now i) {d : Nat} (hd : d < 16777216) :
    TimeNear period now (Instant.add period i d) := by
  obtain ⟨hp0, hp1, hn⟩ := hc
  obtain ⟨hphase, h1, h2⟩ := h
  have hlow : -536870912 * (period : Int) ≤ (i.cycle - now.cycle).toInt * period :=
    Int.mul_le_mul_of_nonneg_right (by omega) (by omega)
  have hhigh : (i.cycle - now.cycle).toInt * period ≤ 536870912 * (period : Int) :=
    Int.mul_le_mul_of_nonneg_right (by omega) (by omega)
  have hnear : TimeNear period now i := by
    refine ⟨hphase, ?_, ?_⟩ <;> unfold Instant.distance <;> omega
  have hadd := hnear.distance_add ⟨hp0, hp1, hn⟩ hd
  refine ⟨Nat.mod_lt _ hp0, ?_, ?_⟩ <;> rw [hadd] <;> unfold Instant.distance <;> omega

/-! ### The state -/

/-- A stamp near the present. -/
def Stamp.Near (n : Int) (period : Nat) (now : Instant) (p : Word) (st : Stamp) : Prop :=
  (∀ i, st.instant = some i → CaptureNear period now i) ∧ PositionNear n p st.position

/-- A line without a record whose stamp is away from the present. -/
def LocalLine.Near (n : Int) (period : Nat) (now : Instant) (p : Word) (l : LocalLine) : Prop :=
  ∀ r st, l.record = some r → r.stamp = some st → st.Near n period now p

namespace State

variable {s t : State}

/-- What requests are formed from lies near the present, the positions less than `n` counts from it. -/
def NearBy (n : Int) (s : State) : Prop :=
  (∀ m, (s.line m).Near n s.period s.now s.tvu.position) ∧ ∀ e ∈ s.tvu.history, PositionNear n s.tvu.position e.position

theorem nearBy_of_nearPresent (h : s.NearPresent) : s.NearBy 536870912 := h

theorem NearBy.mono (h : s.NearBy n) (hm : n ≤ m) : s.NearBy m :=
  ⟨fun l r st hr hst => ⟨(h.1 l r st hr hst).1, (h.1 l r st hr hst).2.mono hm⟩, fun e he => (h.2 e he).mono hm⟩

/-- R112: the position at an instant is near. -/
theorem positionAt_near (hn : 0 < n) (hn' : n ≤ 1073741824)
    (hh : ∀ e ∈ s.tvu.history, PositionNear n s.tvu.position e.position) (hi : i.phase < s.period)
    (h : s.positionAt i = some x) : PositionNear n s.tvu.position x := by
  have hfound : ∀ c q, historyPosition s.tvu.history c = some q → PositionNear n s.tvu.position q := fun c q hq => by
    obtain ⟨e, he, rfl⟩ := historyPosition_mem hq
    exact hh e he
  by_cases hlater : 0 < (i.cycle - s.now.cycle).toInt ∨ (i.cycle = s.now.cycle ∧ s.now.phase ≤ i.phase)
  · rw [positionAt_later hlater] at h
    cases h
    exact positionNear_self hn _
  · cases hl : s.tvu.history with
    | nil =>
      rw [positionAt_noHistory hlater hl] at h
      cases h
    | cons o rest =>
      simp only [positionAt, if_neg hlater, hl] at h
      rw [← hl] at h
      split at h
      · cases h
      · split at h
        · next hc =>
          split at h
          · next q hq =>
            cases h
            exact interpolate_near (hfound _ _ hq) (positionNear_self hn _) hn' (not_le.1 fun hle => hlater (.inr ⟨hc, hle⟩))
          · cases h
        · split at h
          · next q q' hq hq' =>
            cases h
            exact interpolate_near (hfound _ _ hq) (hfound _ _ hq') hn' hi
          · cases h

/-! ### Requests (R52 to R60) -/

/-- Both schedules in order, that of the travel domain clear of the wrap by `k` counts. -/
def SchedulesFit (k : Nat) (s : State) : Prop := s.TimeInOrder ∧ s.TravelFits k

variable {k : Nat}

theorem schedulesFit_of_same (h : s.SchedulesFit k) (ha : t.asc = s.asc) (hl : t.ltu = s.ltu)
    (hp : t.tvu.position = s.tvu.position) : t.SchedulesFit k :=
  ⟨timeInOrder_of_same h.1 (by rw [ha]) (by rw [period, hl]; rfl) (by rw [now, hl]; rfl),
    travelFits_of_same h.2 (by rw [ha]) hp⟩

theorem admitTime_travelFits (h : s.TravelFits k) (due : Instant) (template : Fin 16) :
    (s.admitTime due template).TravelFits k := by
  refine travelFits_of_same h ?_ (by rw [admitTime_tvu])
  obtain e | e | ⟨slot, free, -, ⟨-, e⟩ | ⟨-, e⟩⟩ := s.admitTime_cases due template <;> rw [e] <;> rfl

theorem admitTravel_timeInOrder (h : s.TimeInOrder) (due : Word) (template : Fin 16) :
    (s.admitTravel due template).TimeInOrder := by
  refine timeInOrder_of_same h ?_ (by simp [period]) (by simp [now])
  obtain e | e | ⟨slot, free, -, ⟨-, e⟩ | ⟨-, e⟩⟩ := s.admitTravel_cases due template <;> rw [e] <;> rfl

/-- R52 to R60: a mark with a near capture instant and a near position is requested into its place. -/
theorem processMark_schedulesFit (hc : ClockFits s.period s.now) (hk : k ≤ 2) (h : s.SchedulesFit k) (source : Address)
    (channel : Fin 8) (seq : Byte) {position : State → Option Word} (hi : CaptureNear s.period s.now i)
    (hpos : ∀ (u : State) q, u.ltu = s.ltu → u.tvu = s.tvu → position u = some q →
      PositionNear 536870914 s.tvu.position q) :
    (s.processMark source channel seq i position).SchedulesFit k := by
  obtain e | e | ⟨j, s1, -, h1, he⟩ := s.processMark_cases source channel seq i position
  · rwa [e]
  · rw [e]
    exact schedulesFit_of_same h rfl rfl rfl
  · have hltu := sequenceTest_ltu s j seq s1 h1
    have htvu := sequenceTest_tvu s j seq s1 h1
    have hper : s1.period = s.period := by rw [period, hltu]; rfl
    have hnow : s1.now = s.now := by rw [now, hltu]; rfl
    have hs1 : s1.SchedulesFit k := schedulesFit_of_same h (sequenceTest_asc s j seq s1 h1) hltu (by rw [htvu])
    have hdelay := (s1.entry j).delay.isLt
    obtain e | e | e | ⟨q, hq, e⟩ := he <;> rw [e]
    · exact hs1
    · exact schedulesFit_of_same hs1 rfl rfl rfl
    · rw [← hper, ← hnow] at hc hi
      exact ⟨admitTime_inOrder hc hs1.1 (hi.due hc hdelay) _, admitTime_travelFits hs1.2 _ _⟩
    · obtain ⟨hq1, hq2⟩ := hpos s1 q hltu htvu hq
      have hdue : signedDifference (q + (s1.entry j).delay.setWidth 32) s1.tvu.position =
          signedDifference q s.tvu.position + (s1.entry j).delay.toNat := by
        rw [htvu, ← BitVec.ofNat_toNat, signedDifference_add_ofNat (by omega)]
      exact ⟨admitTravel_timeInOrder hs1.1 _ _, admitTravel_fits hk hs1.2 _ _ (by omega) (by omega)⟩

/-- R52: a received mark. -/
theorem receiveMark_schedulesFit (ht : s.TimeSound) (hk : k ≤ 2) (h : s.SchedulesFit k) (hn : s.NearBy n)
    (hle : n ≤ 536870914) (source : Address) (channel : Fin 8) (seq : Byte) (cycleLow phase : Half) :
    (s.receiveMark source channel seq cycleLow phase).SchedulesFit k := by
  obtain e | ⟨hl, hp, e⟩ := s.receiveMark_cases source channel seq cycleLow phase <;> rw [e]
  · exact h
  · refine processMark_schedulesFit (clockFits ht (run_of_locked hl).1) hk h _ _ _ (captureNear_rebuilt hp)
      fun u q hltu htvu hq => ?_
    have hnear := positionAt_near (s := u) (n := 536870914) (by norm_num) (by norm_num)
      (by rw [htvu]; exact (hn.mono hle).2) (by rw [period, hltu]; exact hp) hq
    rwa [htvu] at hnear

end State
end Sys2Proof.Machine
end

section
/-! The moves and the order of the schedules (R67 to R69): each keeps both in order, a count change taking one count of
what keeps the travel schedule clear of the wrap. -/

namespace Sys2Proof.Machine.State

variable {s t : State} {k c : Nat} {n : Int}

/-! ### What requests are formed from -/

theorem nearBy_of_records (h : s.NearBy n) (hp : t.period = s.period) (hn : t.now = s.now) (hv : t.tvu = s.tvu)
    (hr : ∀ m r, (t.line m).record = some r → ∃ q, (s.line m).record = some q ∧ r.stamp = q.stamp) : t.NearBy n := by
  unfold NearBy
  rw [hp, hn, hv]
  refine ⟨fun m r st hrec hst => ?_, h.2⟩
  obtain ⟨q, hq, e⟩ := hr m r hrec
  exact h.1 m q st hq (e ▸ hst)

theorem nearBy_of_same (h : s.NearBy n) (hp : t.period = s.period) (hn : t.now = s.now) (hv : t.tvu = s.tvu)
    (hl : t.llu = s.llu) : t.NearBy n :=
  nearBy_of_records h hp hn hv fun m r hr => ⟨r, line_of_llu hl m ▸ hr, rfl⟩

/-- R122: an acceptance removes its line's record. -/
theorem nearBy_accept (h : s.NearBy n) (m : LineId) (level : Level) : (s.mapLine m fun l => l.accept level).NearBy n := by
  refine nearBy_of_records h rfl rfl rfl fun j r hr => ?_
  rw [line_mapLine] at hr
  split at hr
  · cases hr
  · exact ⟨r, hr, rfl⟩

/-- R121: the stamp of a first sight is the present instant and position. -/
theorem firstSight_near (ht : s.TimeSound) (hn : 0 < n) {m : LineId} {st : Stamp}
    (h : (s.firstSightRecord m).stamp = some st) : st.Near n s.period s.now s.tvu.position := by
  unfold firstSightRecord at h
  dsimp only at h
  split at h
  · cases h
    refine ⟨fun i hi => ?_, positionNear_self hn _⟩
    dsimp only at hi
    split at hi
    · next hl =>
      cases hi
      exact captureNear_self (phase_lt ht (run_of_locked hl).1)
    · cases hi
  · cases h

theorem nearBy_sight (ht : s.TimeSound) (hn : 0 < n) (h : s.NearBy n) (m : LineId) :
    (s.mapLine m fun l => { l with record := some (s.firstSightRecord m) }).NearBy n := by
  refine ⟨fun j r st hr hst => ?_, h.2⟩
  rw [line_mapLine] at hr
  split at hr
  · cases hr
    exact firstSight_near ht hn hst
  · exact h.1 j r st hr hst

/-- R115: a rebase moves the positions with the present one. -/
theorem zeroRebase_nearBy (h : s.NearBy n) : s.zeroRebase.NearBy n := by
  have hsame : ∀ x, PositionNear n s.tvu.position x → PositionNear n 0#32 (x - s.tvu.position) := fun x hx => by
    unfold PositionNear signedDifference at *
    rwa [BitVec.sub_zero]
  constructor
  · intro m r st hr hst
    have e : s.zeroRebase.line m = (s.line m).rebaseRecord s.tvu.position := line_mapLines s m _
    rw [e] at hr
    obtain ⟨q, hq, rfl⟩ := Option.map_eq_some_iff.1 hr
    obtain ⟨st', hst', rfl⟩ := Option.map_eq_some_iff.1 hst
    obtain ⟨hi, hp⟩ := h.1 m q st' hq hst'
    exact ⟨hi, hsame _ hp⟩
  · intro e he
    obtain ⟨e', he', rfl⟩ := List.mem_map.1 he
    exact hsame _ (h.2 e' he')

theorem countChange_position (s : State) (d : CountChange) :
    (s.countChange d).tvu.position = s.tvu.position + 1#32 ∨ (s.countChange d).tvu.position = s.tvu.position - 1#32 := by
  cases d
  · exact .inl rfl
  · exact .inr (by simp [countChange])

/-- R109: a count change brings the present position one count away. -/
theorem countChange_nearBy (hn : n ≤ 1073741824) (h : s.NearBy n) (d : CountChange) : (s.countChange d).NearBy (n + 1) := by
  have hcount : ∀ x, PositionNear n s.tvu.position x → PositionNear (n + 1) (s.countChange d).tvu.position x :=
    fun x hx => by
      obtain e | e := countChange_position s d <;> rw [e]
      · exact (hx.count hn).1
      · exact (hx.count hn).2
  have hper : (s.countChange d).period = s.period := by simp [period]
  have hnow : (s.countChange d).now = s.now := by simp [now]
  constructor
  · intro m r st hr hst
    rw [line_of_llu (countChange_llu s d)] at hr
    obtain ⟨hi, hp⟩ := h.1 m r st hr hst
    rw [hper, hnow]
    exact ⟨hi, hcount _ hp⟩
  · intro e he
    rw [countChange_history] at he
    exact hcount _ (h.2 e he)

/-! ### Accepted edges -/

/-- R115: a rebase changes nothing of the time domain. -/
theorem zeroRebase_schedulesFit (h : s.SchedulesFit k) : s.zeroRebase.SchedulesFit k :=
  ⟨timeInOrder_of_same h.1 rfl rfl rfl, zeroRebase_fits h.2⟩

theorem countChange_schedulesFit (hk : k + 1 ≤ 2) (h : s.SchedulesFit (k + 1)) (d : CountChange) :
    (s.countChange d).SchedulesFit k :=
  ⟨timeInOrder_of_same h.1 (countChange_kept s d).2.1 (by simp [period]) (by simp [now]), countChange_fits hk h.2 d⟩

/-- R43 to R45: a near capture is requested into its place. -/
theorem takeCapture_schedulesFit (hc : ClockFits s.period s.now) (hk : k ≤ 2) (h : s.SchedulesFit k)
    (settings : LineSettings) {i : Instant} {p : Word} (hi : CaptureNear s.period s.now i)
    (hp : PositionNear 536870914 s.tvu.position p) : (s.takeCapture settings i p).SchedulesFit k := by
  refine (takeCapture_keeps (P := fun u => u.SchedulesFit k ∧ u.ltu = s.ltu ∧ u.tvu = s.tvu) settings i p ?_ ?_ ?_
    ⟨h, rfl, rfl⟩).1
  · exact fun u m ⟨hu, hl, hv⟩ => ⟨schedulesFit_of_same hu rfl rfl rfl, hl, hv⟩
  · intro u channel seq ⟨hu, hl, hv⟩
    have hper : u.period = s.period := by rw [period, hl]; rfl
    have hnow : u.now = s.now := by rw [now, hl]; rfl
    refine ⟨?_, by rw [localRoute, processMark_ltu, hl], by rw [localRoute, processMark_tvu, hv]⟩
    rw [← hper, ← hnow] at hc hi
    refine processMark_schedulesFit hc hk hu _ _ _ hi fun _ q _ _ hq => ?_
    cases hq
    rwa [hv]
  · intro u channel seq ⟨hu, hl, hv⟩
    exact ⟨schedulesFit_of_same hu (publishRoute_asc u _ _ _) (publishRoute_ltu u _ _ _) (by rw [publishRoute_tvu]),
      by rw [publishRoute_ltu, hl], by rw [publishRoute_tvu, hv]⟩

theorem SchedulesFit.mono {j : Nat} (h : s.SchedulesFit k) (hj : j ≤ k) : s.SchedulesFit j := ⟨h.1, h.2.mono hj⟩

theorem cancelWhere_schedulesFit (h : s.SchedulesFit k) (w : HeldSet → Bool) : (s.cancelWhere w).SchedulesFit k :=
  ⟨cancelWhere_timeInOrder h.1 w, cancelWhere_travelFits h.2 w⟩

/-! ### The moves -/

/-- The schedules stand in order and what requests are formed from lies near the present, with room for `k` count
changes. -/
def Ordered (k : Nat) (s : State) : Prop :=
  s.TimeSound ∧ s.QuietUnlessLocked ∧ s.SchedulesFit k ∧ s.NearBy (536870914 - k)

theorem edgeCost_eq_one {m : LineId} (hn : m = 6 ∨ m = 7) : edgeCost m = 1 := if_pos hn

/-- R122, R123, R128: an accepted edge. -/
theorem edge_ordered {m : LineId} {r : FilterRecord} (hc : edgeCost m ≤ k) (hk : k ≤ 2) (h : s.Ordered k)
    (hr : (s.line m).record = some r ∨ r = s.firstSightRecord m) :
    (s.acceptEdge m r).SchedulesFit (k - edgeCost m) ∧
      (s.acceptEdge m r).NearBy (536870914 - (k - edgeCost m : Nat)) := by
  obtain ⟨ht, hq, hfit, hnear⟩ := h
  have ha : (s.mapLine m fun l => l.accept r.pending).SchedulesFit k := schedulesFit_of_same hfit rfl rfl rfl
  have hb := nearBy_accept hnear m r.pending
  refine s.acceptEdge_keeps (P := fun u => u.SchedulesFit (k - edgeCost m) ∧
    u.NearBy (536870914 - (k - edgeCost m : Nat))) m r ?_ ?_ (fun d hm => ?_) fun i p settings hst => ?_
  · exact ⟨ha.mono (by omega), hb.mono (by omega)⟩
  · exact ⟨(zeroRebase_schedulesFit ha).mono (by omega), (zeroRebase_nearBy hb).mono (by omega)⟩
  · rw [edgeCost_eq_one hm] at hc ⊢
    obtain ⟨j, rfl⟩ : ∃ j, k = j + 1 := ⟨k - 1, by omega⟩
    exact ⟨countChange_schedulesFit hk ha d, (countChange_nearBy (by omega) hb d).mono (by omega)⟩
  · have hl : s.locked = true := by
      by_contra hn
      exact no_capture (by simpa using hn) (hq (by simpa using hn)).2 hr i p hst
    obtain ⟨hi, hp⟩ : ({ instant := some i, position := p } : Stamp).Near (536870914 - k) s.period s.now s.tvu.position := by
      obtain hr | rfl := hr
      · exact hnear.1 m r _ hr hst
      · exact firstSight_near ht (by omega) hst
    have hfit' : ((s.mapLine m fun l => l.accept r.pending).mapLine m LocalLine.startDeadTime).SchedulesFit k :=
      schedulesFit_of_same ha rfl rfl rfl
    have hcap := takeCapture_schedulesFit (s := (s.mapLine m fun l => l.accept r.pending).mapLine m LocalLine.startDeadTime)
      (clockFits ht (run_of_locked hl).1) hk hfit' settings (hi i rfl) (hp.mono (by omega))
    refine ⟨hcap.mono (by omega), ?_⟩
    refine (nearBy_of_records hb (by simp [period]) (by simp [now]) (by simp) fun j q hj => ?_).mono (n := 536870914 - k)
      (by omega)
    rw [line_of_llu (takeCapture_llu _ _ _ _), line_mapLine] at hj
    split at hj
    · next e => subst e; exact ⟨q, hj, rfl⟩
    · exact ⟨q, hj, rfl⟩

/-- R67 to R69: every move keeps the schedules in order. -/
theorem move_ordered (m : Move c s t) (hc : c ≤ k) (hk : k ≤ 2) (h : s.Ordered k) : t.Ordered (k - c) := by
  have hstands := move_lineTimeStands m
  have hsound := move_timeSound m h.1
  have hquiet := move_quiet m h.2.1
  have hper := hstands.period
  have hnow := hstands.now
  obtain ⟨ht, hq, hfit, hnear⟩ := id h
  refine ⟨hsound, hquiet, ?_⟩
  cases m with
  | edge _ n r hr => exact edge_ordered hc hk h hr
  | mark _ a ch q cl ph =>
    exact ⟨receiveMark_schedulesFit ht hk hfit hnear (by omega) a ch q cl ph,
      nearBy_of_same hnear hper hnow (by rw [receiveMark_tvu]) (by rw [receiveMark_llu])⟩
  | cancelAll => exact ⟨cancelWhere_schedulesFit hfit _, nearBy_of_same hnear rfl rfl rfl rfl⟩
  | onTimeExpiry _ n =>
    exact ⟨cancelWhere_schedulesFit (s := s.stopped n) (schedulesFit_of_same hfit rfl rfl rfl) _,
      nearBy_of_same hnear rfl rfl rfl rfl⟩
  | sight _ n => exact ⟨schedulesFit_of_same hfit rfl rfl rfl, nearBy_sight ht (by omega) hnear n⟩
  | lines _ l hl => exact ⟨schedulesFit_of_same hfit rfl rfl rfl, nearBy_of_records hnear rfl rfl rfl fun n => (hl n).2⟩
  | _ => exact ⟨⟨timeInOrder_of_same hfit.1 rfl hper hnow, travelFits_of_same hfit.2 rfl rfl⟩,
      nearBy_of_same hnear hper hnow rfl rfl⟩

/-- R67 to R69: a run of moves keeps the schedules in order. -/
theorem moves_ordered (h : Moves c s t) (hc : c ≤ k) (hk : k ≤ 2) (hs : s.Ordered k) : t.Ordered (k - c) := by
  induction h generalizing k with
  | refl => exact ⟨hs.1, hs.2.1, hs.2.2.1.mono (by omega), hs.2.2.2.mono (by omega)⟩
  | tail _ m ih =>
    rw [← Nat.sub_sub]
    exact move_ordered m (by omega) (by omega) (ih (by omega) hk hs)

end Sys2Proof.Machine.State
end

section
/-! The leaps and the order of the schedules (R8, R9, R16, R23), and with them every step. -/

namespace Sys2Proof.Machine

/-- R23: an instant lies at its distance from another. -/
theorem add_of_distance {p k : Nat} {i j : Instant} (hj : j.phase < p) (h : Instant.distance p i j = k)
    (hc : 0 ≤ (j.cycle - i.cycle).toInt) : Instant.add p i k = j := by
  obtain ⟨c, hcycles⟩ := Int.eq_ofNat_of_zero_le hc
  have hsum : i.phase + k = j.phase + p * c := by
    unfold Instant.distance at h
    rw [hcycles] at h
    have hcomm : (c : Int) * p = ((p * c : Nat) : Int) := by push_cast; ring
    rw [hcomm] at h
    omega
  have hmod : (i.phase + k) % p = j.phase := by rw [hsum, Nat.add_mul_mod_self_left, Nat.mod_eq_of_lt hj]
  have hdiv : (i.phase + k) / p = c := by
    rw [hsum, Nat.add_mul_div_left _ _ (by omega), Nat.div_eq_of_lt hj, Nat.zero_add]
  have hcycle : i.cycle + BitVec.ofNat 32 c = j.cycle := by
    have e : j.cycle - i.cycle = BitVec.ofNat 32 c := by
      rw [← BitVec.ofInt_toInt (x := j.cycle - i.cycle), hcycles]
      exact BitVec.ofInt_natCast _ _
    rw [← e, BitVec.add_comm, BitVec.sub_add_cancel]
  rw [Instant.add, hmod, hdiv, hcycle]

namespace State

variable {s t : State} {k : Nat} {c : Option Instr}

theorem schedulesFit_nil (h : s.NoActions) : s.SchedulesFit k := ⟨timeInOrder_nil h.1, travelFits_nil h.2⟩

@[simp] theorem historyAppend_position (s : State) (c : Word) : (s.historyAppend c).tvu.position = s.tvu.position := by
  unfold historyAppend
  split <;> rfl

/-! ### Passes at a later instant (R8, R9, R16) -/

/-- R74: the pass of an advance or of a forward adoption. -/
theorem passTaken_schedulesFit (hc : ClockFits s.period s.now) (h : s.SchedulesFit k) {i : Instant}
    (hpass : s.PassTaken t i) (hn : t.now = i) (hp : t.period = s.period) (hv : t.tvu.position = s.tvu.position)
    (hphase : i.phase < s.period) (h0 : 0 ≤ Instant.distance s.period s.now i)
    (hle : Instant.distance s.period s.now i ≤ s.period) : t.SchedulesFit k := by
  obtain ⟨hasc, -⟩ := hpass
  have hlater := timePass_later (t := s.mapLtu fun l => { l with instant := i }) hc h.1 rfl rfl hphase h0 hle
  exact ⟨timeInOrder_of_same hlater (by rw [hasc]; rfl) hp hn, travelFits_of_same h.2 (by rw [hasc]) hv⟩

/-- R8, R9: the next instant lies one tick on. -/
theorem distance_nextInstant (hc : ClockFits s.period s.now) :
    Instant.distance s.period s.now s.nextInstant = 1 ∧ s.nextInstant.phase < s.period := by
  obtain ⟨hp, -, hn⟩ := hc
  obtain h | h := lt_or_ge (s.now.phase + 1) s.period
  · rw [nextInstant_of_lt h]
    exact ⟨by simp [Instant.distance], h⟩
  · rw [nextInstant_of_le h]
    have h1 : (s.now.cycle + 1#32 - s.now.cycle).toInt = 1 := by
      rw [BitVec.add_comm, BitVec.add_sub_cancel]
      decide
    refine ⟨?_, hp⟩
    simp only [Instant.distance, h1]
    omega

theorem advance_position (s : State) : s.advance.tvu.position = s.tvu.position := by
  unfold advance
  split
  · rfl
  · change (boundary _ _ _).tvu.position = _
    rw [boundary_tvu, historyAppend_position]
    rfl

theorem advance_period (s : State) : s.advance.period = s.period := by
  refine period_of_params ?_
  unfold advance
  split
  · rfl
  · rw [expireCycle_ltu]

theorem advance_schedulesFit (hc : ClockFits s.period s.now) (h : s.SchedulesFit k) : s.advance.SchedulesFit k := by
  obtain ⟨hd, hphase⟩ := distance_nextInstant hc
  have hp := hc.1
  exact passTaken_schedulesFit hc h (advance_passTaken s) (advance_now s) (advance_period s) (advance_position s) hphase
    (by omega) (by omega)

theorem adoptForward_position (s : State) (source : Address) (target : Instant) :
    (s.adoptForward source target).tvu.position = s.tvu.position := by
  rw [adoptForward_eq, timePass_tvu]
  split
  · rfl
  · rw [boundary_tvu, historyAppend_position, jumped_tvu]

/-! ### The timeline shift of a merge (R22, R23, R85) -/

/-- R23, R85: a merge moves the present instant and every due point by the same ticks. -/
theorem mergeTo_schedulesFit (hc : ClockFits s.period s.now) (h : s.SchedulesFit k) (source : Address) {target : Instant}
    {d : Nat} (ht : target.phase < s.period) (hd : Instant.distance s.period s.now target = d) :
    (s.mergeTo source target d).SchedulesFit k := by
  have hasc := mergeTo_asc s source target d
  have hper : (s.mergeTo source target d).period = s.period := period_of_params (by rw [mergeTo_ltu])
  have hnow : (s.mergeTo source target d).now = target := by rw [now, mergeTo_ltu]
  have htarget : Instant.add s.period s.now d = target := by
    refine add_of_distance ht hd ?_
    have := lt_cycles (p := s.period) (b := 0) (e := (target.phase : Int) - s.now.phase)
      (c := (target.cycle - s.now.cycle).toInt) (by omega) (by unfold Instant.distance at hd; omega)
    omega
  have hshift : ∀ a ∈ s.asc.time, Instant.distance s.period target (Instant.add s.period a.due d) = s.timeAhead a :=
    fun a ha => by
      have hnear := h.1.near ha
      obtain ⟨h1, h2⟩ := hnear.cycles hc.2.2
      rw [← htarget]
      exact distance_shift hc.1 d hc.2.2 hnear.1 (by omega) (by omega)
  refine ⟨?_, travelFits_of_same h.2 (by rw [hasc]; rfl) (by rw [mergeTo_tvu]; rfl)⟩
  unfold TimeInOrder timeAhead
  rw [hper, hnow, hasc]
  refine ⟨List.pairwise_map.2 (List.Pairwise.imp_of_mem (fun {a b} ha hb hab => ?_) h.1.1), fun b hb => ?_⟩
  · rw [hshift a ha, hshift b hb]
    exact hab
  · obtain ⟨a, ha, rfl⟩ := List.mem_map.1 hb
    obtain ⟨-, h0, hlt⟩ := h.1.2 a ha
    dsimp only
    rw [hshift a ha]
    exact ⟨Nat.mod_lt _ hc.1, h0, hlt⟩

/-! ### Every step -/

/-- R67 to R69: every leap keeps the schedules in order. -/
theorem leap_schedulesFit (l : Leap c s t) (h : s.Ordered k) : t.SchedulesFit k := by
  obtain ⟨ht, hq, hfit, -⟩ := h
  have hnone : s.locked = false → s.NoActions := fun hl => (hq hl).1
  cases l with
  | pinReset => exact schedulesFit_nil ⟨rfl, rfl⟩
  | restart => exact schedulesFit_nil ⟨rfl, rfl⟩
  | halt _ _ code hr => exact schedulesFit_nil (hnone (unlocked_of_configuring hr))
  | run _ _ img pins hr => exact schedulesFit_nil (hnone (unlocked_of_configuring hr))
  | wrap _ _ hl => exact schedulesFit_nil (hnone (unlocked_of_listening hl))
  | listen _ _ hl => exact schedulesFit_nil (hnone (unlocked_of_listening hl))
  | selfStart _ _ hl =>
    refine schedulesFit_nil ?_
    unfold NoActions
    rw [startSelf_asc]
    exact hnone (unlocked_of_listening hl)
  | join _ _ source target hl =>
    refine schedulesFit_nil ?_
    unfold NoActions
    rw [adoptInListen_asc]
    exact hnone (unlocked_of_listening hl)
  | hold => exact ⟨timeInOrder_of_same hfit.1 rfl rfl rfl, travelFits_of_same hfit.2 rfl rfl⟩
  | backward => exact ⟨timeInOrder_of_same hfit.1 rfl rfl rfl, travelFits_of_same hfit.2 rfl rfl⟩
  | lead => exact ⟨timeInOrder_of_same hfit.1 rfl rfl rfl, travelFits_of_same hfit.2 rfl rfl⟩
  | advance _ _ hl => exact advance_schedulesFit (clockFits ht (run_of_locked hl).1) hfit
  | forward _ _ source target hl hphase h0 hw =>
    have hrun := (run_of_locked hl).1
    have hwindow := (period_pos ht hrun).2
    exact passTaken_schedulesFit (clockFits ht hrun) hfit (adoptForward_passTaken s source target)
      (adoptForward_now s source target) (period_of_params (by rw [adoptForward_ltu]))
      (adoptForward_position s source target) hphase h0.le (by omega)
  | merge _ _ source target d hl hphase hd =>
    exact mergeTo_schedulesFit (clockFits ht (run_of_locked hl).1) hfit source hphase hd

theorem step_schedulesFit (hs : s.Ordered 2) (h : step s = .next t) : t.SchedulesFit 0 := by
  obtain ⟨u, hu, hlast⟩ := step_goes h
  have hord := moves_ordered hu le_rfl le_rfl hs
  obtain rfl | hl := hlast
  · exact hord.2.2.1
  · exact leap_schedulesFit hl hord

/-- Settles O25: filing, by its rule; a backward count change, by the tail; and every step, by its moves and its leap. -/
theorem filingGoesBehindEquals : Obligations.FilingGoesBehindEquals := by
  refine ⟨fun _ r a l htotal htrans hl => fileAction_inOrder r a l htotal htrans hl, fun s front a h => ?_,
    fun s t ht ha htime htravel hwrap hnear h => ?_⟩
  · exact countChange_backward h
  · obtain ⟨-, -, hquiet⟩ := actionsSound_iff.1 ha
    have hfit := step_schedulesFit ⟨ht, hquiet, ⟨htime, travelFits_of_inOrder htravel hwrap⟩,
      nearBy_of_nearPresent hnear⟩ h
    exact ⟨hfit.1, hfit.2.inOrder⟩

end State
end Sys2Proof.Machine
end
